-- ==== Sys2Proof/Word.lean ====
section
/-! DEFINITION. The word types of the hardware: 64-bit registers and addresses (R4, R22, R23, R150),
bytes, and 32-bit instruction words (R184). -/

namespace Sys2Proof

/-- A 64-bit register, or a 64-bit virtual address (R4, R22, R23, R150). -/
abbrev Word := BitVec 64

/-- A byte, the unit of every size in the sources (R151). -/
abbrev Byte := BitVec 8

/-- A 32-bit instruction word (R184). -/
abbrev InstrWord := BitVec 32

end Sys2Proof
end

