-- ==== Sys2Proof/Machine/PState.lean ====
section
/-! DEFINITION. The Exception levels (R9) and the process state PSTATE (R21), as plain data. -/

namespace Sys2Proof.Machine

/-- The four Exception levels the sources name (R9, R240). -/
inductive EL where
  | el0 | el1 | el2 | el3
deriving DecidableEq, Repr, Inhabited

/-- PSTATE: every field R21 names, at the width R21 gives it. A one-bit field is a `Bool`.
The fields that R21 lists "when FEAT_x" are held whatever the configuration. -/
structure PState where
  /-- PSTATE.EL, the current Exception level. -/
  el : EL
  /-- PSTATE.SP, stack pointer selection: 0 in the `t` modes, 1 in the `h` modes. -/
  sp : Bool
  /-- PSTATE.nRW, Execution state: 0 AArch64, 1 AArch32. -/
  nRW : Bool
  /-- Negative Condition flag. -/
  n : Bool
  /-- Zero Condition flag. -/
  z : Bool
  /-- Carry Condition flag. -/
  c : Bool
  /-- Overflow Condition flag. -/
  v : Bool
  /-- Overflow or saturation flag (AArch32). -/
  q : Bool
  /-- Greater than or Equal flags (AArch32). -/
  ge : BitVec 4
  /-- If-Then (AArch32). -/
  it : BitVec 8
  /-- Endianness (AArch32): 0 little-endian, 1 big-endian (R107). -/
  e : Bool
  /-- T32 Instruction set state (AArch32). -/
  t : Bool
  /-- PSTATE.M[3:0], AArch32 Mode. -/
  m : BitVec 4
  /-- Debug exception mask. -/
  d : Bool
  /-- SError interrupt mask. -/
  a : Bool
  /-- IRQ interrupt mask. -/
  i : Bool
  /-- FIQ interrupt mask. -/
  f : Bool
  /-- All IRQ or FIQ interrupts mask (FEAT_NMI). -/
  allint : Bool
  /-- Software Step. -/
  ss : Bool
  /-- Illegal Execution state. -/
  il : Bool
  /-- Data Independent Timing (FEAT_DIT). -/
  dit : Bool
  /-- Speculative Store Bypass (FEAT_SSBS). -/
  ssbs : Bool
  /-- Privileged Access Never (FEAT_PAN). -/
  pan : Bool
  /-- User Access Override (FEAT_UAO). -/
  uao : Bool
  /-- Tag Check Override (FEAT_MTE). -/
  tco : Bool
  /-- Branch Type Indicator (FEAT_BTI). -/
  btype : BitVec 2
  /-- Exception return state lock (FEAT_GCS). -/
  exlock : Bool
  /-- PMU exception pending bit (FEAT_SEBEP). -/
  ppend : Bool
  /-- PMU exception mask bit (FEAT_EBEP). -/
  pm : Bool
deriving DecidableEq, Repr, Inhabited

end Sys2Proof.Machine
end

