-- ==== Sys2Proof/Config.lean ====
section
/-! DEFINITION. The configuration: every implementation parameter of R5, as plain data, and the FREE VALUES: constants
without a body, so that nothing proved over the model can rest on what they are. -/

namespace Sys2Proof

open Machine (EL PState)

/-- The three translation granules (R59, R151). -/
inductive Granule where
  | kb4 | kb16 | kb64
deriving DecidableEq, Repr, Inhabited

/-- `ImplementedGranules` of R5, a subset of {4KB, 16KB, 64KB}. -/
structure Granules where
  kb4 : Bool
  kb16 : Bool
  kb64 : Bool
deriving DecidableEq, Repr, Inhabited

/-- `TG0_fallback` of R5: a granule for each 2-bit value of TCR_EL3.TG0. -/
structure Tg0Fallback where
  at00 : Granule
  at01 : Granule
  at10 : Granule
  at11 : Granule
deriving DecidableEq, Repr, Inhabited

/-- A Boolean for each Exception level (`BigEndianSupported(EL)`, `LittleEndianSupported(EL)` of R5). -/
structure PerEL where
  el0 : Bool
  el1 : Bool
  el2 : Bool
  el3 : Bool
deriving DecidableEq, Repr, Inhabited

/-- The launch-state premises of R263 (and of R22, R24, R25, R171, R239): what a reset leaves in the state no source
gives a reset value for. -/
structure Launch where
  pstate : PState
  x : Vector Word 31
  pc : Word
  fgwte3Tcr : Bool
  ttbr0EL3 : Word
  regimeEnabled : Bool
  vbarEL3 : Word
  elrEL3 : Word
  esrEL3 : Word
deriving DecidableEq, Repr

/-- The configuration: the parameters of R5, constant over a run. -/
structure Cfg where
  /-- `HaveEL3`, which is also `ImplementedEL(3)` (R3, R240). -/
  haveEL3 : Bool
  /-- `ImplementedEL(0)`. -/
  implEL0 : Bool
  /-- `ImplementedEL(1)`. -/
  implEL1 : Bool
  /-- `ImplementedEL(2)`. -/
  implEL2 : Bool
  featD128 : Bool
  featHaft : Bool
  featThe : Bool
  /-- `PTTWI_fixed0` (R36, D27). -/
  pttwiFixed0 : Bool
  featAie : Bool
  featS1poe : Bool
  featS1pie : Bool
  featMteNoAddressTags : Bool
  featMteCanonicalTags : Bool
  featLpa2 : Bool
  featLva : Bool
  featMte2 : Bool
  featPauth : Bool
  featHpds2 : Bool
  featHpds : Bool
  featHafdbs : Bool
  featFgwte3 : Bool
  /-- `ImplementedGranules` (R59). -/
  granules : Granules
  /-- `TG0_fallback` (R59, D23). -/
  tg0Fallback : Tg0Fallback
  /-- `TG0_readback_programmed` (R59). -/
  tg0ReadbackProgrammed : Bool
  /-- ID_AA64MMFR0_EL1.PARange, read only (R26). -/
  paRange : BitVec 4
  /-- `PS52_implemented` (R58, N7). -/
  ps52Implemented : Bool
  /-- `T0SZ_max` (R152, D14). -/
  t0szMax : Nat
  /-- `TCO_res0_without_MTE2` (R124, D25). -/
  tcoRes0WithoutMte2 : Bool
  /-- `ResBitStored(TCR_EL3, b)`, bit `b` of this word (R12, D4). -/
  resStoredTcr : Word
  /-- `ResBitStored(SPSR_EL3, b)`, bit `b` of this word (R12, D4). -/
  resStoredSpsr : Word
  /-- `AArch32Supported` (R91). -/
  aarch32Supported : Bool
  /-- `BigEndianSupported(EL)` (R107). -/
  bigEndian : PerEL
  /-- `LittleEndianSupported(EL)` (R107). -/
  littleEndian : PerEL
  featDit : Bool
  featSsbs : Bool
  featPan : Bool
  featGcs : Bool
  featSebep : Bool
  featEbep : Bool
  featMte : Bool
  featUao : Bool
  featNmi : Bool
  featBti : Bool
  /-- Whether the lost list of TBI cases (R56, R238, N6) holds the exception taken to EL3. -/
  tbiClearsEntryPc : Bool
  /-- Whether the lost list of TBI cases (R56, R238, N6) holds the exception return to EL3. -/
  tbiClearsReturnPc : Bool
  /-- PRESUMED when true: the model takes R222 and the general-knowledge paragraph of R239 as its named assumption
  and continues past an exception taken to EL3. False is the spec's default (D6): it stops there. Log 9. -/
  assumesEntryR239 : Bool
  /-- The launch-state premises (R263). -/
  launch : Launch
deriving DecidableEq, Repr

/-- PSTATE at launch. PRESUMED, the family's (G8): EL3 with D, A, I, F set, AArch64 state, SP_EL3 selected.
DESIGN CHOICE: every other field 0. Log 4. -/
def Launch.pstateBase : PState :=
  { el := .el3, sp := true, nRW := false, n := false, z := false, c := false, v := false, q := false, ge := 0,
    it := 0, e := false, t := false, m := 0, d := true, a := true, i := true, f := true, allint := false, ss := false,
    il := false, dit := false, ssbs := false, pan := false, uao := false, tco := false, btype := 0, exlock := false,
    ppend := false, pm := false }

/-- The launch premises of the reset configuration. DESIGN CHOICE: zeros (log 5 to 8). PRESUMED: the EL3 translation
regime is disabled (G8, log 7). -/
def Launch.base : Launch :=
  { pstate := Launch.pstateBase, x := Vector.replicate 31 0, pc := 0, fgwte3Tcr := false, ttbr0EL3 := 0,
    regimeEnabled := false, vbarEL3 := 0, elrEL3 := 0, esrEL3 := 0 }

/-- The configuration of the reset state: `cfgBase` of 95_test_vectors.md. DESIGN CHOICE, log 1. -/
def Cfg.base : Cfg :=
  { haveEL3 := true, implEL0 := true, implEL1 := true, implEL2 := true, featD128 := false, featHaft := false,
    featThe := false, pttwiFixed0 := false, featAie := false, featS1poe := false, featS1pie := false,
    featMteNoAddressTags := false, featMteCanonicalTags := false, featLpa2 := false, featLva := false,
    featMte2 := false, featPauth := false, featHpds2 := false, featHpds := false, featHafdbs := false,
    featFgwte3 := false, granules := ⟨true, true, true⟩, tg0Fallback := ⟨.kb4, .kb4, .kb4, .kb4⟩,
    tg0ReadbackProgrammed := true, paRange := 0, ps52Implemented := false, t0szMax := 63,
    tcoRes0WithoutMte2 := true, resStoredTcr := 0, resStoredSpsr := 0, aarch32Supported := false,
    bigEndian := ⟨false, false, false, false⟩, littleEndian := ⟨true, true, true, true⟩, featDit := false,
    featSsbs := false, featPan := false, featGcs := false, featSebep := false, featEbep := false, featMte := false,
    featUao := false, featNmi := false, featBti := false, tbiClearsEntryPc := true, tbiClearsReturnPc := true,
    assumesEntryR239 := true, launch := Launch.base }

/-- The 26 named fields of TCR_EL3 (R30). -/
inductive TcrField where
  | disCH0 | haft | pttwi | d128 | aie | poe | pie | pnCH | mtx | ds | tcma | tbid | hwu62 | hwu61 | hwu60 | hwu59
  | hpd | hd | ha | tbi | ps | tg0 | sh0 | orgn0 | irgn0 | t0sz
deriving DecidableEq, Repr, Inhabited

/-- The four descriptor bits with IMPLEMENTATION DEFINED hardware use (R48 to R51). -/
inductive HwuBit where
  | b62 | b61 | b60 | b59
deriving DecidableEq, Repr, Inhabited

/-- The hierarchical control bits of a Table descriptor whose position no source gives (R52, R153, N20). -/
inductive TableBit where
  | apTable1 | uxnTable | nsTable
deriving DecidableEq, Repr, Inhabited

/-- FREE VALUE: the `n`-th draw of `UNKNOWN_64` (R11, U10). -/
opaque Config.unknown64 : Nat → Word

/-- FREE VALUE: the `n`-th draw of one bit: whether a "conditionally copied" field is copied (R234, U19, D20). -/
opaque Config.unknownBit : Nat → Bool

/-- FREE VALUE: the `n`-th draw of the PSTATE fields whose value on exception entry no source gives (R239, N45). -/
opaque Config.unknownPState : Nat → PState

/-- FREE VALUE: which entry of `History` the `n`-th translation uses for a field of TCR_EL3 (R170, U20, D12). -/
opaque Config.tlbPick : Nat → TcrField → Nat

/-- FREE VALUE: the Exception level an AArch32 mode M[3:0] belongs to. The map is in no source (R113, R236, N43). -/
opaque Config.aarch32ModeEL : BitVec 4 → EL

/-- FREE VALUE: `HWU_use[59..62]`, the IMPLEMENTATION DEFINED use of a descriptor bit, an opaque token (U1, D26). -/
opaque Config.hwuUse : HwuBit → Nat

/-- FREE VALUE: what a Table descriptor holds in a control bit whose position no source gives (R153, N20, log 48). -/
opaque Config.tableBit : TableBit → Word → Bool

end Sys2Proof
end

