-- ==== Sys2Proof/Machine/Bits.lean ====
section
/-! DEFINITION. Bit fields of a 64-bit register (R7): reading a bit, masks, and placing a field. -/

namespace Sys2Proof.Machine

/-- Bit `n` of a register (R7). -/
def bit (w : Word) (n : Nat) : Bool := w.getLsbD n

/-- The slice `w[lo+width-1 : lo]` (R7). -/
def slice (w : Word) (lo width : Nat) : BitVec width := w.extractLsb' lo width

/-- The register with the bits `hi` down to `lo` set. -/
def fieldMask (hi lo : Nat) : Word := (BitVec.allOnes (hi - lo + 1)).setWidth 64 <<< lo

/-- `fieldMask hi lo` when `c` holds, else no bit. -/
def maskWhen (c : Bool) (hi lo : Nat) : Word := if c then fieldMask hi lo else 0

/-- The register with bit `n` equal to `b` and every other bit 0. -/
def placeBit (b : Bool) (n : Nat) : Word := if b then (1 : Word) <<< n else 0

/-- The register with the field `v` at bit `lo` and every other bit 0. -/
def placeField {width : Nat} (v : BitVec width) (lo : Nat) : Word := v.setWidth 64 <<< lo

/-- Zero the top byte, bits [63:56], of an address (R56, R157). -/
def clearTopByte (a : Word) : Word := a &&& ~~~ (fieldMask 63 56)

end Sys2Proof.Machine
end

