-- ==== Sys2Proof/Machine/Effective.lean ====
section
/-! DEFINITION. What each bit of TCR_EL3 means: the Effective value of every field (R33 to R64, collected in R80) and the
read view (R32). Conditions that name another field use its Effective value (R13, D24, C11). -/

namespace Sys2Proof.Machine

/-- Whether a granule is implemented (R59). -/
def implementsGranule (c : Cfg) : Granule → Bool
  | .kb4 => c.granules.kb4
  | .kb16 => c.granules.kb16
  | .kb64 => c.granules.kb64

/-- The value table of TG0 (R59): the order is not monotonic, and 0b11 is reserved. -/
def decodeTG0 (v : BitVec 2) : Option Granule :=
  if v = 0b00 then some .kb4 else if v = 0b01 then some .kb64 else if v = 0b10 then some .kb16 else none

/-- `Encode` of R32: 4KB to 0b00, 64KB to 0b01, 16KB to 0b10. -/
def encodeTG0 : Granule → BitVec 2
  | .kb4 => 0b00
  | .kb64 => 0b01
  | .kb16 => 0b10

/-- `TG0_fallback(v)` (R59). -/
def fallbackTG0 (c : Cfg) (v : BitVec 2) : Granule :=
  if v = 0b00 then c.tg0Fallback.at00 else if v = 0b01 then c.tg0Fallback.at01
  else if v = 0b10 then c.tg0Fallback.at10 else c.tg0Fallback.at11

/-- Eff.D128 (R38). -/
def effD128 (c : Cfg) (raw : Word) : Bool := c.featD128 && bit raw 38

/-- Eff.TG0 (R59): the programmed granule if it is implemented, else the fallback. -/
def effTG0 (c : Cfg) (raw : Word) : Granule :=
  match decodeTG0 (slice raw 14 2) with
  | some g => if implementsGranule c g then g else fallbackTG0 c (slice raw 14 2)
  | none => fallbackTG0 c (slice raw 14 2)

/-- Eff.DisCH0 (R34): live when FEAT_D128 and Eff.D128 = 1. -/
def effDisCH0 (c : Cfg) (raw : Word) : Bool := c.featD128 && effD128 c raw && bit raw 43

/-- Eff.HAFT (R35). -/
def effHAFT (c : Cfg) (raw : Word) : Bool := c.featHaft && bit raw 42

/-- Eff.PTTWI (R36): 0 where the bit is a read-only 0. -/
def effPTTWI (c : Cfg) (raw : Word) : Bool := c.featThe && !c.pttwiFixed0 && bit raw 41

/-- Eff.AIE (R39). -/
def effAIE (c : Cfg) (raw : Word) : Bool := c.featAie && bit raw 37

/-- Eff.POE (R40). -/
def effPOE (c : Cfg) (raw : Word) : Bool := c.featS1poe && bit raw 36

/-- Eff.PIE (R41): RES1 when Eff.D128 = 1, where FEAT_S1PIE is implemented. -/
def effPIE (c : Cfg) (raw : Word) : Bool := c.featS1pie && (effD128 c raw || bit raw 35)

/-- Eff.PnCH (R42): RES1 when Eff.D128 = 1, where FEAT_THE is implemented. -/
def effPnCH (c : Cfg) (raw : Word) : Bool := c.featThe && (effD128 c raw || bit raw 34)

/-- The condition of MTX (R43). -/
def mtxLive (c : Cfg) : Bool := c.featMteNoAddressTags || c.featMteCanonicalTags

/-- Eff.MTX (R43). -/
def effMTX (c : Cfg) (raw : Word) : Bool := mtxLive c && bit raw 33

/-- The condition of DS (R44): FEAT_LPA2, no VMSAv9-128, and not the 64KB granule. -/
def dsLive (c : Cfg) (raw : Word) : Bool :=
  c.featLpa2 && (!c.featD128 || !effD128 c raw) && decide (effTG0 c raw ≠ .kb64)

/-- Eff.DS (R44). -/
def effDS (c : Cfg) (raw : Word) : Bool := dsLive c raw && bit raw 32

/-- Eff.TCMA (R46). -/
def effTCMA (c : Cfg) (raw : Word) : Bool := c.featMte2 && bit raw 30

/-- Eff.TBID (R47). -/
def effTBID (c : Cfg) (raw : Word) : Bool := c.featPauth && bit raw 29

/-- Eff.HPD (R52). -/
def effHPD (c : Cfg) (raw : Word) : Bool := c.featHpds && bit raw 24

/-- Eff.HWU62, HWU61, HWU60 and HWU59, at bit `n` 28, 27, 26 and 25 (R48 to R51): 0 while Eff.HPD is 0. -/
def effHWU (c : Cfg) (raw : Word) (n : Nat) : Bool := c.featHpds2 && effHPD c raw && bit raw n

/-- Eff.HD (R54). -/
def effHD (c : Cfg) (raw : Word) : Bool := c.featHafdbs && bit raw 22

/-- Eff.HA (R55). -/
def effHA (c : Cfg) (raw : Word) : Bool := c.featHafdbs && bit raw 21

/-- The Effective values of the 26 fields (R80). -/
structure Effective where
  disCH0 : Bool
  haft : Bool
  pttwi : Bool
  d128 : Bool
  aie : Bool
  poe : Bool
  pie : Bool
  pnCH : Bool
  mtx : Bool
  ds : Bool
  tcma : Bool
  tbid : Bool
  hwu62 : Bool
  hwu61 : Bool
  hwu60 : Bool
  hwu59 : Bool
  hpd : Bool
  hd : Bool
  ha : Bool
  tbi : Bool
  ps : BitVec 3
  tg0 : Granule
  sh0 : BitVec 2
  orgn0 : BitVec 2
  irgn0 : BitVec 2
  t0sz : BitVec 6
deriving DecidableEq, Repr, Inhabited

/-- `Eff(cfg, raw)`: the Effective values of one raw value (R80). -/
def effective (c : Cfg) (raw : Word) : Effective :=
  { disCH0 := effDisCH0 c raw, haft := effHAFT c raw, pttwi := effPTTWI c raw, d128 := effD128 c raw,
    aie := effAIE c raw, poe := effPOE c raw, pie := effPIE c raw, pnCH := effPnCH c raw, mtx := effMTX c raw,
    ds := effDS c raw, tcma := effTCMA c raw, tbid := effTBID c raw, hwu62 := effHWU c raw 28,
    hwu61 := effHWU c raw 27, hwu60 := effHWU c raw 26, hwu59 := effHWU c raw 25, hpd := effHPD c raw,
    hd := effHD c raw, ha := effHA c raw, tbi := bit raw 20, ps := slice raw 16 3, tg0 := effTG0 c raw,
    sh0 := slice raw 12 2, orgn0 := slice raw 10 2, irgn0 := slice raw 8 2, t0sz := slice raw 0 6 }

/-- `DirtyStateManaged` (R54, R80): HD has effect only with HA. -/
def dirtyStateManaged (e : Effective) : Bool := e.hd && e.ha

/-- The bits of TCR_EL3 that are RES0 now: the always-reserved ones, and every conditional field whose condition of R30
fails (R10, R32, R33 to R63). -/
def tcrRes0 (c : Cfg) (raw : Word) : Word :=
  fieldMask 63 44 ||| maskWhen (!effD128 c raw) 43 43 ||| maskWhen (!c.featHaft) 42 42
    ||| maskWhen (!c.featThe) 41 41 ||| fieldMask 40 39 ||| maskWhen (!c.featD128) 38 38
    ||| maskWhen (!c.featAie) 37 37 ||| maskWhen (!c.featS1poe) 36 36 ||| maskWhen (!c.featS1pie) 35 35
    ||| maskWhen (!c.featThe) 34 34 ||| maskWhen (!mtxLive c) 33 33 ||| maskWhen (!dsLive c raw) 32 32
    ||| maskWhen (!c.featMte2) 30 30 ||| maskWhen (!c.featPauth) 29 29 ||| maskWhen (!c.featHpds2) 28 25
    ||| maskWhen (!c.featHpds) 24 24 ||| maskWhen (!c.featHafdbs) 22 21 ||| fieldMask 19 19 ||| fieldMask 7 6

/-- The bits of TCR_EL3 that are RES1 now: 31 and 23 always (R45, R53), 35 and 34 under Eff.D128 = 1 where their feature
is implemented (R41, R42). -/
def tcrRes1 (c : Cfg) (raw : Word) : Word :=
  fieldMask 31 31 ||| fieldMask 23 23 ||| maskWhen (c.featS1pie && effD128 c raw) 35 35
    ||| maskWhen (c.featThe && effD128 c raw) 34 34

/-- What a register with reserved bits reads back (R12): a live bit its raw value, a reserved bit its raw value where
`stored` says the bit is stored, else 0 for RES0 and 1 for RES1. -/
def readBack (raw res0 res1 stored : Word) : Word :=
  (raw &&& ~~~ (res0 ||| res1)) ||| (raw &&& (res0 ||| res1) &&& stored) ||| (res1 &&& ~~~ stored)

/-- Bits [15:14] of the read view (R59): the value programmed, or the encoding of the granule chosen. -/
def readBackTG0 (c : Cfg) (raw v : Word) : Word :=
  if c.tg0ReadbackProgrammed then v
  else (v &&& ~~~ (fieldMask 15 14)) ||| placeField (encodeTG0 (effTG0 c raw)) 14

/-- Bit [41] of the read view (R36): 0 where PTTWI is implemented as a read-only 0. -/
def readBackPTTWI (c : Cfg) (v : Word) : Word :=
  v &&& ~~~ (maskWhen (c.featThe && c.pttwiFixed0) 41 41)

/-- `ReadView(cfg, TCR_EL3.raw)` (R32): what MRS returns. -/
def tcrReadView (c : Cfg) (raw : Word) : Word :=
  readBackPTTWI c (readBackTG0 c raw (readBack raw (tcrRes0 c raw) (tcrRes1 c raw) c.resStoredTcr))

end Sys2Proof.Machine
end

