-- ==== Sys2Proof/Machine/Flags.lean ====
section
/-! DEFINITION. The flags, masks and other fields of PSTATE and their places in SPSR_EL3, in both layouts (R93, R114):
what an exception taken to EL3 saves (R230, R231), what an exception return from EL3 restores (R232, R233, R234), when it is
illegal (R236), and the read view of SPSR_EL3 (R12, R90). No instruction in scope computes a flag (R205), so this is every
flag rule the spec gives. -/

namespace Sys2Proof.Machine

/-- The 2-bit number of an Exception level (R9). -/
def EL.toBits : EL → BitVec 2
  | .el0 => 0b00
  | .el1 => 0b01
  | .el2 => 0b10
  | .el3 => 0b11

/-- The Exception level of a 2-bit number (R9). -/
def EL.ofBits (v : BitVec 2) : EL :=
  if v = 0b00 then .el0 else if v = 0b01 then .el1 else if v = 0b10 then .el2 else .el3

/-- `ImplementedEL(n)` (R5, R240): EL3's presence is `HaveEL3`. -/
def implementedEL (c : Cfg) : EL → Bool
  | .el0 => c.implEL0
  | .el1 => c.implEL1
  | .el2 => c.implEL2
  | .el3 => c.haveEL3

/-- A Boolean parameter at an Exception level. -/
def perEL (p : PerEL) : EL → Bool
  | .el0 => p.el0
  | .el1 => p.el1
  | .el2 => p.el2
  | .el3 => p.el3

/-- `TCO_live` (R124, R230). -/
def tcoLive (c : Cfg) : Bool := c.featMte && (c.featMte2 || !c.tcoRes0WithoutMte2)

/-- What SPSR_EL3 receives on an exception taken to EL3 from AArch64 state (R230). RES0 positions are written 0 (D19,
log 31). -/
def spsrOfAArch64 (c : Cfg) (p : PState) : Word :=
  placeBit (c.featGcs && p.exlock) 34 ||| placeBit (c.featSebep && p.ppend) 33 ||| placeBit (c.featEbep && p.pm) 32
    ||| placeBit p.n 31 ||| placeBit p.z 30 ||| placeBit p.c 29 ||| placeBit p.v 28
    ||| placeBit (tcoLive c && p.tco) 25 ||| placeBit (c.featDit && p.dit) 24 ||| placeBit (c.featUao && p.uao) 23
    ||| placeBit (c.featPan && p.pan) 22 ||| placeBit p.ss 21 ||| placeBit p.il 20
    ||| placeBit (c.featNmi && p.allint) 13 ||| placeBit (c.featSsbs && p.ssbs) 12
    ||| placeField (if c.featBti then p.btype else 0) 10
    ||| placeBit p.d 9 ||| placeBit p.a 8 ||| placeBit p.i 7 ||| placeBit p.f 6
    ||| placeField p.el.toBits 2 ||| placeBit p.sp 0

/-- What SPSR_EL3 receives on an exception taken to EL3 from AArch32 state (R231); bit 4 is 1, IT is split (R100). -/
def spsrOfAArch32 (c : Cfg) (p : PState) : Word :=
  placeBit p.n 31 ||| placeBit p.z 30 ||| placeBit p.c 29 ||| placeBit p.v 28 ||| placeBit p.q 27
    ||| placeField (p.it.extractLsb' 0 2) 25 ||| placeBit (c.featDit && p.dit) 24
    ||| placeBit (c.featSsbs && p.ssbs) 23 ||| placeBit (c.featPan && p.pan) 22 ||| placeBit p.ss 21
    ||| placeBit p.il 20 ||| placeField p.ge 16 ||| placeField (p.it.extractLsb' 2 6) 10 ||| placeBit p.e 9
    ||| placeBit p.a 8 ||| placeBit p.i 7 ||| placeBit p.f 6 ||| placeBit p.t 5 ||| placeBit true 4
    ||| placeField p.m 0

/-- The saved process state of an exception taken to EL3, in the layout of the state it is taken from (R91). -/
def savedPState (c : Cfg) (p : PState) : Word :=
  if p.nRW then spsrOfAArch32 c p else spsrOfAArch64 c p

/-- The M[3:0] values of the AArch64 layout that are not reserved: EL0t, EL1t, EL1h, EL2t, EL2h, EL3t, EL3h (R140). -/
def legalM64 : List (BitVec 4) := [0b0000, 0b0100, 0b0101, 0b1000, 0b1001, 0b1100, 0b1101]

/-- The M[3:0] values of the AArch32 layout that are not reserved: User, FIQ, IRQ, Supervisor, Monitor, Abort, Hyp,
Undefined, System (R113). -/
def legalM32 : List (BitVec 4) :=
  [0b0000, 0b0001, 0b0010, 0b0011, 0b0110, 0b0111, 0b1010, 0b1011, 0b1111]

/-- Whether a saved value is in the AArch32 layout: bit 4, M[4] (R91, R112, R139). -/
def spsrIsAArch32 (raw : Word) : Bool := bit raw 4

/-- The Exception level a saved value returns to: M[3:2] in the AArch64 layout (R140); in the AArch32 layout the level of
the mode, by a map no source gives (R236, N43, log 27). -/
def spsrTargetEL (raw : Word) : EL :=
  if spsrIsAArch32 raw then Config.aarch32ModeEL (slice raw 0 4) else EL.ofBits (slice raw 2 2)

/-- `IllegalReturn(s)` (R236): the two causes the sources name, for each layout. -/
def illegalReturn (c : Cfg) (raw : Word) : Bool :=
  if spsrIsAArch32 raw then
    !c.aarch32Supported || !legalM32.contains (slice raw 0 4) || !implementedEL c (spsrTargetEL raw)
  else !legalM64.contains (slice raw 0 4) || !implementedEL c (spsrTargetEL raw)

/-- PSTATE.E after a return: the saved bit, but RES0 or RES1 where the level returned to supports one byte order only
(R107, R233). -/
def restoredE (c : Cfg) (target : EL) (saved : Bool) : Bool :=
  if !perEL c.bigEndian target then false else if !perEL c.littleEndian target then true else saved

/-- PSTATE after an exception return in the AArch64 layout (R232). `copySS` and `copyPPEND` say whether the conditional
copies happen; where they do not, the field is 0 (R234, D20). -/
def restoreAArch64 (c : Cfg) (raw : Word) (copySS copyPPEND : Bool) (p : PState) : PState :=
  { p with
    exlock := if c.featGcs then bit raw 34 else p.exlock
    ppend := if c.featSebep then bit raw 33 && copyPPEND else p.ppend
    pm := if c.featEbep then bit raw 32 else p.pm
    n := bit raw 31, z := bit raw 30, c := bit raw 29, v := bit raw 28
    tco := if tcoLive c then bit raw 25 else p.tco
    dit := if c.featDit then bit raw 24 else p.dit
    uao := if c.featUao then bit raw 23 else p.uao
    pan := if c.featPan then bit raw 22 else p.pan
    ss := bit raw 21 && copySS
    il := bit raw 20
    allint := if c.featNmi then bit raw 13 else p.allint
    ssbs := if c.featSsbs then bit raw 12 else p.ssbs
    btype := if c.featBti then slice raw 10 2 else p.btype
    d := bit raw 9, a := bit raw 8, i := bit raw 7, f := bit raw 6
    nRW := bit raw 4
    el := EL.ofBits (slice raw 2 2)
    sp := bit raw 0 }

/-- PSTATE after an exception return in the AArch32 layout (R233). PSTATE.EL becomes the level of the mode returned to
(log 27). -/
def restoreAArch32 (c : Cfg) (raw : Word) (copySS : Bool) (p : PState) : PState :=
  { p with
    n := bit raw 31, z := bit raw 30, c := bit raw 29, v := bit raw 28, q := bit raw 27
    it := slice raw 10 6 ++ slice raw 25 2
    dit := if c.featDit then bit raw 24 else p.dit
    ssbs := if c.featSsbs then bit raw 23 else p.ssbs
    pan := if c.featPan then bit raw 22 else p.pan
    ss := bit raw 21 && copySS
    il := bit raw 20
    ge := slice raw 16 4
    e := restoredE c (spsrTargetEL raw) (bit raw 9)
    a := bit raw 8, i := bit raw 7, f := bit raw 6
    t := bit raw 5
    nRW := bit raw 4
    m := slice raw 0 4
    el := spsrTargetEL raw }

/-- PSTATE after an exception return from EL3, in the layout bit 4 of the saved value selects (R91). -/
def restoredPState (c : Cfg) (raw : Word) (copySS copyPPEND : Bool) (p : PState) : PState :=
  if spsrIsAArch32 raw then restoreAArch32 c raw copySS p else restoreAArch64 c raw copySS copyPPEND p

/-- Whether some Exception level supports a byte order. -/
def anyEL (p : PerEL) : Bool := p.el0 || p.el1 || p.el2 || p.el3

/-- The layout a stored value of SPSR_EL3 is read under: AArch32 where bit 4 is set and AArch32 is supported (R91). -/
def spsrReadsAArch32 (c : Cfg) (raw : Word) : Bool := c.aarch32Supported && spsrIsAArch32 raw

/-- The RES0 bits of the AArch32 layout (R93 to R113; E where no level is big-endian, R107). -/
def spsrRes0AArch32 (c : Cfg) : Word :=
  fieldMask 63 32 ||| maskWhen (!c.featDit) 24 24 ||| maskWhen (!c.featSsbs) 23 23 ||| maskWhen (!c.featPan) 22 22
    ||| maskWhen (!anyEL c.bigEndian) 9 9

/-- The RES1 bits of the AArch32 layout: E where big-endian is supported and little-endian is not (R107). -/
def spsrRes1AArch32 (c : Cfg) : Word :=
  maskWhen (anyEL c.bigEndian && !anyEL c.littleEndian) 9 9

/-- The RES0 bits of the AArch64 layout (R114 to R140). -/
def spsrRes0AArch64 (c : Cfg) : Word :=
  fieldMask 63 35 ||| maskWhen (!c.featGcs) 34 34 ||| maskWhen (!c.featSebep) 33 33 ||| maskWhen (!c.featEbep) 32 32
    ||| fieldMask 27 26 ||| maskWhen (!tcoLive c) 25 25 ||| maskWhen (!c.featDit) 24 24
    ||| maskWhen (!c.featUao) 23 23 ||| maskWhen (!c.featPan) 22 22 ||| fieldMask 19 14
    ||| maskWhen (!c.featNmi) 13 13 ||| maskWhen (!c.featSsbs) 12 12 ||| maskWhen (!c.featBti) 11 10
    ||| fieldMask 5 5

/-- The RES0 bits of SPSR_EL3 now. -/
def spsrRes0 (c : Cfg) (raw : Word) : Word :=
  if spsrReadsAArch32 c raw then spsrRes0AArch32 c else spsrRes0AArch64 c

/-- The RES1 bits of SPSR_EL3 now. -/
def spsrRes1 (c : Cfg) (raw : Word) : Word :=
  if spsrReadsAArch32 c raw then spsrRes1AArch32 c else 0

/-- `ReadView(cfg, SPSR_EL3.raw)`: what MRS returns (R12, R90, R202). -/
def spsrReadView (c : Cfg) (raw : Word) : Word :=
  readBack raw (spsrRes0 c raw) (spsrRes1 c raw) c.resStoredSpsr

end Sys2Proof.Machine
end

