-- ==== Sys2Proof/Syntax.lean ====
section
/-! DEFINITION. The instructions: one constructor per row of spec/opcode_table.json (R180). -/

namespace Sys2Proof

/-- The four instructions in scope (R180). Each has the one operand `<Xt>`, the number `t` of a 64-bit general
register (R186). `t` is 0 to 31 in a well-formed instruction. -/
inductive Instr where
  /-- `MRS <Xt>, TCR_EL3` (R200). -/
  | mrsTcrEL3 (t : Nat)
  /-- `MSR TCR_EL3, <Xt>` (R201). -/
  | msrTcrEL3 (t : Nat)
  /-- `MRS <Xt>, SPSR_EL3` (R202). -/
  | mrsSpsrEL3 (t : Nat)
  /-- `MSR SPSR_EL3, <Xt>` (R203). -/
  | msrSpsrEL3 (t : Nat)
deriving DecidableEq, Repr, Inhabited

end Sys2Proof
end

