-- ==== Sys2Proof/WellFormed.lean ====
section
/-! DEFINITION. Which instruction terms an instruction word can spell: the register number fits the 5-bit field Rt
(R22, R184, R200 to R203: "`t` in 0..31"). -/

namespace Sys2Proof

/-- The check of an instruction's fields: `t` in 0..31 (R200 to R203). -/
def Instr.wf : Instr → Bool
  | .mrsTcrEL3 t => decide (t < 32)
  | .msrTcrEL3 t => decide (t < 32)
  | .mrsSpsrEL3 t => decide (t < 32)
  | .msrSpsrEL3 t => decide (t < 32)

/-- An instruction is well formed when its check passes. -/
abbrev WellFormed (i : Instr) : Prop := i.wf = true

end Sys2Proof
end

