-- ==== Sys2Proof/Decode.lean ====
section
/-! DEFINITION. Decoding and encoding: the System register encoding space (R181 to R183), the 32-bit word (R184, PRESUMED,
log 17), the decoder (R185), total on any bytes and rejecting by name, and the encoder, written from the same table. -/

namespace Sys2Proof

/-- The two system registers the instructions of the spec name (R180). -/
inductive SysReg where
  | tcrEL3 | spsrEL3
deriving DecidableEq, Repr, Inhabited

/-- The direction of an access: L = 1 for MRS (read), L = 0 for MSR (write) (R181, R184). -/
inductive Direction where
  | mrs | msr
deriving DecidableEq, Repr, Inhabited

/-- The five fields that name a register in the System register encoding space, at the widths of R181. -/
structure SysRegTuple where
  op0 : BitVec 2
  op1 : BitVec 3
  crn : BitVec 4
  crm : BitVec 4
  op2 : BitVec 3
deriving DecidableEq, Repr, Inhabited

/-- The fields of the instruction word of R184 below its fixed bits. -/
structure WordFields where
  l : BitVec 1
  tuple : SysRegTuple
  rt : BitVec 5
deriving DecidableEq, Repr, Inhabited

/-- Why the decoder rejects: U21, or bytes too few for a word. -/
inductive DecodeError where
  /-- The word spells none of the four instructions: `not_in_spec` (R185). Safe: the model stops. -/
  | notInSpec (word : InstrWord)
  /-- Fewer than four bytes. Safe: the model stops. -/
  | truncated
deriving DecidableEq, Repr

/-- TCR_EL3 (R182) and SPSR_EL3 (R183) in the System register encoding space. -/
def sysRegTuple : SysReg → SysRegTuple
  | .tcrEL3 => { op0 := 0b11, op1 := 0b110, crn := 0b0010, crm := 0b0000, op2 := 0b010 }
  | .spsrEL3 => { op0 := 0b11, op1 := 0b110, crn := 0b0100, crm := 0b0000, op2 := 0b000 }

/-- Bit [21] of the word, L (R184). -/
def directionBit : Direction → BitVec 1
  | .mrs => 1
  | .msr => 0

/-- Bits [31:22] of the word (R184). -/
def fixedBits : BitVec 10 := 0b1101010100

/-- The fields of a word: L [21], op0 [20:19], op1 [18:16], CRn [15:12], CRm [11:8], op2 [7:5], Rt [4:0] (R184). -/
def wordFields (w : InstrWord) : WordFields :=
  { l := w.extractLsb' 21 1
    tuple := { op0 := w.extractLsb' 19 2, op1 := w.extractLsb' 16 3, crn := w.extractLsb' 12 4,
               crm := w.extractLsb' 8 4, op2 := w.extractLsb' 5 3 }
    rt := w.extractLsb' 0 5 }

/-- The word of given fields (R184). -/
def wordOfFields (f : WordFields) : InstrWord :=
  fixedBits ++ f.l ++ f.tuple.op0 ++ f.tuple.op1 ++ f.tuple.crn ++ f.tuple.crm ++ f.tuple.op2 ++ f.rt

/-- The register a tuple names, if it is one of the two (R191: one register, one encoding). -/
def sysRegOf (p : SysRegTuple) : Option SysReg :=
  if p = sysRegTuple .tcrEL3 then some .tcrEL3
  else if p = sysRegTuple .spsrEL3 then some .spsrEL3
  else none

/-- The direction L selects (R184). -/
def directionOf (l : BitVec 1) : Direction :=
  if l = 1 then .mrs else .msr

/-- The instruction of a direction, a register and an operand number (R180). -/
def instrOf : Direction → SysReg → Nat → Instr
  | .mrs, .tcrEL3, t => .mrsTcrEL3 t
  | .msr, .tcrEL3, t => .msrTcrEL3 t
  | .mrs, .spsrEL3, t => .mrsSpsrEL3 t
  | .msr, .spsrEL3, t => .msrSpsrEL3 t

/-- The direction of an instruction (R180, R181). -/
def instrDirection : Instr → Direction
  | .mrsTcrEL3 _ => .mrs
  | .msrTcrEL3 _ => .msr
  | .mrsSpsrEL3 _ => .mrs
  | .msrSpsrEL3 _ => .msr

/-- The system register an instruction names (R180). -/
def instrSysReg : Instr → SysReg
  | .mrsTcrEL3 _ => .tcrEL3
  | .msrTcrEL3 _ => .tcrEL3
  | .mrsSpsrEL3 _ => .spsrEL3
  | .msrSpsrEL3 _ => .spsrEL3

/-- The number `t` of `<Xt>` (R186). -/
def instrOperand : Instr → Nat
  | .mrsTcrEL3 t => t
  | .msrTcrEL3 t => t
  | .mrsSpsrEL3 t => t
  | .msrSpsrEL3 t => t

/-- The instruction a word spells (R185); `none` is the verdict `not_in_spec`, never UNDEFINED. -/
def decodeWord (w : InstrWord) : Option Instr :=
  if w.extractLsb' 22 10 = fixedBits then
    (sysRegOf (wordFields w).tuple).map fun r =>
      instrOf (directionOf (wordFields w).l) r (wordFields w).rt.toNat
  else none

/-- The word of four bytes in memory order: little-endian (R164, D10, PRESUMED, log 16). -/
def wordOfBytes (b0 b1 b2 b3 : Byte) : InstrWord := b3 ++ b2 ++ b1 ++ b0

/-- The four bytes of a word in memory order: little-endian (R164, D10, PRESUMED, log 16). -/
def bytesOfWord (w : InstrWord) : List Byte :=
  [w.extractLsb' 0 8, w.extractLsb' 8 8, w.extractLsb' 16 8, w.extractLsb' 24 8]

/-- The decoder: one instruction from the front of any bytes, and the bytes after it (R185). -/
def decode : List Byte → Except DecodeError (Instr × List Byte)
  | b0 :: b1 :: b2 :: b3 :: rest =>
    match decodeWord (wordOfBytes b0 b1 b2 b3) with
    | some i => .ok (i, rest)
    | none => .error (.notInSpec (wordOfBytes b0 b1 b2 b3))
  | _ => .error .truncated

/-- The word of an instruction (R180 to R184). Of an ill-formed instruction it keeps the low five bits of `t`. -/
def encode (i : Instr) : InstrWord :=
  wordOfFields
    { l := directionBit (instrDirection i), tuple := sysRegTuple (instrSysReg i), rt := BitVec.ofNat 5 (instrOperand i) }

/-- The bytes of an instruction in memory order (R164, R184). -/
def encodeBytes (i : Instr) : List Byte := bytesOfWord (encode i)

/-- The instruction word whose bits are `w`, of which the table gives the low `nbits`. -/
def tableWord (nbits w : Nat) : InstrWord := BitVec.ofNat 32 (w % 2 ^ nbits)

/-- The instruction the decoder reads from a word of the opcode table, laid out in memory order. -/
def decodeTableWord (nbits w : Nat) : Option Instr :=
  match decode (bytesOfWord (tableWord nbits w)) with
  | .ok (i, _) => some i
  | .error _ => none

end Sys2Proof
end

