-- ==== Sys2Proof/Machine/State.lean ====
section
/-! DEFINITION. The state of the machine (R20), as plain data, the events of its environment, the reasons a step can stop,
and the state right after reset. -/

namespace Sys2Proof.Machine

/-- The kind of a memory access of the EL3 regime, as far as TBID tells kinds apart (R157, R173). -/
inductive Access where
  /-- An instruction fetch. -/
  | instruction
  /-- A data access. -/
  | data
  /-- An address of a cache maintenance or address translation instruction, "treated as data accesses" (R173). -/
  | maintenance
deriving DecidableEq, Repr, Inhabited

/-- The kinds of exception R239 gives a vector offset for. -/
inductive ExceptionKind where
  | synchronous | irq | fiq | serror
deriving DecidableEq, Repr, Inhabited

/-- What the environment can do between two instructions (log 13). None has an encoding in the opcode table. -/
inductive Event where
  /-- The event `Reset`: a Warm reset (R260). -/
  | warmReset
  /-- "an exception return operation in EL3" (R232). -/
  | exceptionReturn
  /-- An exception taken to EL3 from outside the four instructions, with the syndrome it records (R230, R231, R239). -/
  | exceptionToEL3 (kind : ExceptionKind) (syndrome : Word)
  /-- A memory access of the EL3 regime by an instruction the spec names and does not define (R223). -/
  | access (va : Word) (acc : Access)
deriving DecidableEq, Repr

/-- The state of the machine: the tuple of R20, the registers R239 names, memory, and the model's own fields. -/
structure State where
  /-- The configuration of R5, constant over a run (log 1). -/
  cfg : Cfg
  /-- TCR_EL3, the raw 64 bits last assigned (R31). -/
  tcrEL3 : Word
  /-- SPSR_EL3, the raw 64 bits last assigned (R90). -/
  spsrEL3 : Word
  /-- The process state (R21). -/
  pstate : PState
  /-- The general registers x[0] to x[30] (R22). -/
  x : Vector Word 31
  /-- The program counter (R23). -/
  pc : Word
  /-- FGWTE3_EL3.TCR_EL3, the one field of FGWTE3_EL3 a source names (R24). -/
  fgwte3Tcr : Bool
  /-- TTBR0_EL3 (R25). -/
  ttbr0EL3 : Word
  /-- Whether the EL3 translation regime is enabled, by a control no source names (R171). -/
  regimeEnabled : Bool
  /-- `History`: the raw values TCR_EL3 has held since the last reset, oldest first, which a TLB may still hold
  (R28, R170). -/
  history : List Word
  /-- VBAR_EL3 (R239, log 8). -/
  vbarEL3 : Word
  /-- ELR_EL3 (R239, log 8). -/
  elrEL3 : Word
  /-- ESR_EL3 (R222, R239, log 8). -/
  esrEL3 : Word
  /-- Memory: the bytes that have a value, by address (log 15). -/
  mem : List Host.Cell
  /-- The model's own: what the environment does next, in order (log 13). -/
  events : List Event
  /-- The model's own: how many free values have been drawn (log 14). -/
  draws : Nat
deriving DecidableEq, Repr

/-- The reasons the machine stops with a fault. -/
inductive Fault where
  /-- `raise Undefined()` (R220, D5), by one of the four instructions without EL3 or below EL3. Safe: the spec gives
  neither the level it is taken to nor its syndrome, and the model stops. -/
  | undefined (i : Instr)
  /-- `AArch64.SystemAccessTrap(target, code)` (R221, D6), by `MSR TCR_EL3` under the fine-grained write trap, when the
  configuration does not take R239's assumption. `stopped` is the state it stops in, SPSR_EL3 saved (R230). Safe. -/
  | systemAccessTrap (i : Instr) (target : EL) (code : BitVec 6) (stopped : State)
  /-- An exception taken to EL3 from outside the four instructions, when the configuration does not take R239's
  assumption. `stopped` has SPSR_EL3 saved (R230, R231). Safe. -/
  | exceptionToEL3 (kind : ExceptionKind) (stopped : State)
  /-- The translation table fault of R223, by a memory access of the EL3 regime while T0SZ is below its minimum.
  Safe: what its handler receives is in no source. -/
  | translationFault (stage : Nat) (level : Int) (va : Word) (acc : Access)
  /-- An illegal return event (R236, U11, D21), by an exception return in EL3. Safe. -/
  | illegalReturn (spsr : Word)
  /-- The model's own: a fetch read a byte of memory that has no value (log 15). Safe. -/
  | unwrittenMemory (address : Nat)
deriving DecidableEq, Repr

/-- The reasons the model refuses. -/
inductive Refusal where
  /-- An instruction of the table without a meaning, by exec's arm. Safe. -/
  | notModelled (mnemonic : String)
  /-- The bytes at pc spell none of the four instructions (R185, U21), by step. Safe. -/
  | undecodable (e : DecodeError)
  /-- PSTATE.nRW = 1: the model does not step in AArch32 state (R189, R233, D17), by step and by every instruction.
  Safe. -/
  | aarch32State
  /-- A pc that is not a multiple of 4 (R165, D10), by the fetch. Safe. -/
  | misalignedPc (pc : Word)
  /-- A table walk while SH0 is the reserved 0b01: CONSTRAINED UNPREDICTABLE (R60, U8), by an access. Safe. -/
  | reservedSH0
  /-- A translation under a PS value without a stated meaning (R58, U6), by an access. Safe. -/
  | psWithoutMeaning (ps : BitVec 3)
  /-- A translation with T0SZ above `T0SZ_max` (R152, U14, D14), by an access. Safe. -/
  | t0szAboveMaximum (t0sz : Nat)
  /-- A walk whose end no source describes (R150, R154, R163, N20), by an access. Safe. -/
  | walkNotInSource (va : Word)
  /-- A Canonical Tag Check that does not let a data access go on: what follows is in no source (R158, N27, log 43), by an
  access under MTX. Safe. -/
  | tagCheckNotInSource (va : Word)
  /-- An event that cannot occur in this state: no EL3, not at EL3, or an unsupported source state (R91, R231, R232).
  Safe. -/
  | eventNotPossible (e : Event)
deriving DecidableEq, Repr

/-- The state a reset leaves: the launch premises of the configuration (R263), given raw values of the two registers,
and `History` restarted with the value of TCR_EL3 (R261). -/
def State.ofLaunch (cfg : Cfg) (tcr spsr : Word) (mem : List Host.Cell) (events : List Event) (draws : Nat) : State :=
  { cfg := cfg, tcrEL3 := tcr, spsrEL3 := spsr, pstate := cfg.launch.pstate, x := cfg.launch.x, pc := cfg.launch.pc,
    fgwte3Tcr := cfg.launch.fgwte3Tcr, ttbr0EL3 := cfg.launch.ttbr0EL3, regimeEnabled := cfg.launch.regimeEnabled,
    history := [tcr], vbarEL3 := cfg.launch.vbarEL3, elrEL3 := cfg.launch.elrEL3, esrEL3 := cfg.launch.esrEL3,
    mem := mem, events := events, draws := draws }

/-- The machine right after reset. DESIGN CHOICE: the configuration is `Cfg.base` (log 1) and the UNKNOWN values of
TCR_EL3 and SPSR_EL3 are 0 (log 2, log 3). No memory byte has a value (log 15), no event is to come (log 13). -/
def State.reset : State := State.ofLaunch Cfg.base 0 0 [] [] 0

end Sys2Proof.Machine
end

