-- ==== Sys2Proof/Machine/Memory.lean ====
section
/-! DEFINITION. Memory: the bytes that have a value, in one canonical form (addresses strictly rising, below 2^64). An
unlisted address has no value (log 15), so no entry can equal what an unlisted address reads as. -/

namespace Sys2Proof.Machine

/-- Memory is a list of bytes by address. -/
abbrev Memory := List Host.Cell

/-- The addresses rise strictly, all of them above `low`, and fit 64 bits. -/
def cellsRise : Option Nat → Memory → Bool
  | _, [] => true
  | low, (a, _) :: rest => low.all (· < a) && decide (a < 2 ^ 64) && cellsRise (some a) rest

/-- The canonical form of memory. -/
def Memory.wf (m : Memory) : Bool := cellsRise none m

/-- The byte at an address, if one has been written there. -/
def Memory.read : Memory → Nat → Option Byte
  | [], _ => none
  | (a, b) :: rest, k => if k = a then some b else if k < a then none else Memory.read rest k

/-- Write one byte, keeping the canonical form. -/
def Memory.write : Memory → Nat → Byte → Memory
  | [], k, v => [(k, v)]
  | (a, b) :: rest, k, v =>
    if k < a then (k, v) :: (a, b) :: rest
    else if k = a then (a, v) :: rest
    else (a, b) :: Memory.write rest k v

/-- Write bytes at 64-bit addresses, in order. -/
def Memory.writeAll (m : Memory) : List (Word × Byte) → Memory
  | [] => m
  | (a, v) :: rest => (m.write a.toNat v).writeAll rest

/-- The bytes at `a`, `a+1`, ... (modulo 2^64), or the first address without a value. -/
def Memory.readBytes (m : Memory) (a : Word) : Nat → Except Nat (List Byte)
  | 0 => .ok []
  | n + 1 =>
    match m.read a.toNat with
    | none => .error a.toNat
    | some b =>
      match m.readBytes (a + 1) n with
      | .ok bs => .ok (b :: bs)
      | .error e => .error e

/-- Write bytes at `a`, `a+1`, ... (modulo 2^64). -/
def Memory.writeBytes (m : Memory) (a : Word) : List Byte → Memory
  | [] => m
  | b :: bs => (m.write a.toNat b).writeBytes (a + 1) bs

end Sys2Proof.Machine
end

