-- ==== Sys2Proof/Machine/Operands.lean ====
section
/-! DEFINITION. The one operand form, `<Xt>` (R186): a read or write of the 64-bit general register number `t`, with the
zero register at 31 (R22, D8, PRESUMED, log 18). -/

namespace Sys2Proof.Machine

/-- `x[t]` read (R8, R22): the register for t in 0..30, zero for 31. -/
def State.readX (s : State) (t : Nat) : Word := (s.x[t]?).getD 0

/-- `x[t] <- v` (R8, R22): the register for t in 0..30, discarded for 31. -/
def State.writeX (s : State) (t : Nat) (v : Word) : State := { s with x := s.x.setIfInBounds t v }

end Sys2Proof.Machine
end

