-- ==== Sys2Proof/Machine/Translation.lean ====
section
/-! DEFINITION. What TCR_EL3 tells its consumers (R150 to R163, R170 to R173): which value of it a translation sees, the
address handling, every control of the table walk, the one fault and the refusals of a translation, and the walk itself as
an opaque relation (R163, D15). -/

namespace Sys2Proof.Machine

/-! ## The TLB copy (R28, R170) -/

/-- The value of one field a translation sees: the field of some entry of `History`, chosen by the TLB (R170, D12). Where
all entries agree there is no choice. `g` is the field's Effective value, `current` stands in for an empty `History`. -/
def pickField {α : Type} [DecidableEq α] (hist : List Word) (current : Word) (n : Nat) (f : TcrField) (g : Word → α) : α :=
  match hist with
  | [] => g current
  | h :: rest =>
    if rest.all (fun h' => decide (g h' = g h)) then g h
    else g ((h :: rest).getD (Config.tlbPick n f % (rest.length + 1)) h)

/-- `E`, the record of Effective values the `n`-th translation sees: per field from `History`, POE always from the current
value (R40, R170). -/
def State.seenEffective (s : State) (n : Nat) : Effective :=
  { disCH0 := pickField s.history s.tcrEL3 n .disCH0 (effDisCH0 s.cfg)
    haft := pickField s.history s.tcrEL3 n .haft (effHAFT s.cfg)
    pttwi := pickField s.history s.tcrEL3 n .pttwi (effPTTWI s.cfg)
    d128 := pickField s.history s.tcrEL3 n .d128 (effD128 s.cfg)
    aie := pickField s.history s.tcrEL3 n .aie (effAIE s.cfg)
    poe := effPOE s.cfg s.tcrEL3
    pie := pickField s.history s.tcrEL3 n .pie (effPIE s.cfg)
    pnCH := pickField s.history s.tcrEL3 n .pnCH (effPnCH s.cfg)
    mtx := pickField s.history s.tcrEL3 n .mtx (effMTX s.cfg)
    ds := pickField s.history s.tcrEL3 n .ds (effDS s.cfg)
    tcma := pickField s.history s.tcrEL3 n .tcma (effTCMA s.cfg)
    tbid := pickField s.history s.tcrEL3 n .tbid (effTBID s.cfg)
    hwu62 := pickField s.history s.tcrEL3 n .hwu62 (fun raw => effHWU s.cfg raw 28)
    hwu61 := pickField s.history s.tcrEL3 n .hwu61 (fun raw => effHWU s.cfg raw 27)
    hwu60 := pickField s.history s.tcrEL3 n .hwu60 (fun raw => effHWU s.cfg raw 26)
    hwu59 := pickField s.history s.tcrEL3 n .hwu59 (fun raw => effHWU s.cfg raw 25)
    hpd := pickField s.history s.tcrEL3 n .hpd (effHPD s.cfg)
    hd := pickField s.history s.tcrEL3 n .hd (effHD s.cfg)
    ha := pickField s.history s.tcrEL3 n .ha (effHA s.cfg)
    tbi := pickField s.history s.tcrEL3 n .tbi (fun raw => bit raw 20)
    ps := pickField s.history s.tcrEL3 n .ps (fun raw => slice raw 16 3)
    tg0 := pickField s.history s.tcrEL3 n .tg0 (effTG0 s.cfg)
    sh0 := pickField s.history s.tcrEL3 n .sh0 (fun raw => slice raw 12 2)
    orgn0 := pickField s.history s.tcrEL3 n .orgn0 (fun raw => slice raw 10 2)
    irgn0 := pickField s.history s.tcrEL3 n .irgn0 (fun raw => slice raw 8 2)
    t0sz := pickField s.history s.tcrEL3 n .t0sz (fun raw => slice raw 0 6) }

/-! ## Address generation: the top byte and tags (R157, R158) -/

/-- `TBI_applies(acc)` (R157): to instruction accesses too, unless FEAT_PAuth and TBID. -/
def tbiApplies (c : Cfg) (e : Effective) : Access → Bool
  | .data => e.tbi
  | .maintenance => e.tbi
  | .instruction => e.tbi && !(c.featPauth && e.tbid)

/-- The address that takes part in the address match: without its top byte where TBI applies (R157). -/
def matchedAddress (c : Cfg) (e : Effective) (acc : Access) (va : Word) : Word :=
  if tbiApplies c e acc then clearTopByte va else va

/-- What MTX and TCMA say of one access (R158). -/
structure TagControls where
  /-- Bits [59:56] "hold a Logical Address Tag". -/
  logicalTag : Option (BitVec 4)
  /-- "bits[59:56] are not part of the PAC field". -/
  pacExcludesTag : Bool
  /-- "A Canonical Tag Check operation is performed on Tag Checked memory accesses to a Canonically Tagged memory location." -/
  canonicalTagCheck : Bool
  /-- The access is Unchecked by TCMA. -/
  unchecked : Bool
deriving DecidableEq, Repr, Inhabited

/-- Whether MTX acts on an access: it speaks of data addresses (R43, R158). DESIGN CHOICE, log 43: an address of a cache
maintenance or address translation instruction is no data address here; R173's sentence is for TBID alone. -/
def mtxActs (e : Effective) (acc : Access) : Bool := decide (acc = .data) && e.mtx

/-- What MTX and TCMA say of an access (R43, R46, R158, C10): TCMA acts where address [59:56] is 0b0000. -/
def tagControls (c : Cfg) (e : Effective) (acc : Access) (va : Word) : TagControls :=
  { logicalTag := if mtxActs e acc then some (slice va 56 4) else none
    pacExcludesTag := mtxActs e acc && c.featPauth
    canonicalTagCheck := mtxActs e acc
    unchecked := e.tcma && decide (slice va 56 4 = 0) }

/-- The address the range check looks at: without the top byte where TBI applies, and with bits [59:56] "treated as
0b0000" where MTX acts (R150, R158). -/
def rangeCheckedAddress (c : Cfg) (e : Effective) (acc : Access) (va : Word) : Word :=
  if mtxActs e acc then matchedAddress c e acc va &&& ~~~ (fieldMask 59 56) else matchedAddress c e acc va

/-- The region size `2^(64 - T0SZ)` in bytes (R64, R150). -/
def regionSize (e : Effective) : Nat := 2 ^ (64 - e.t0sz.toNat)

/-- Whether an address lies in the region TTBR0_EL3 addresses, the bottom of the address space (R150, G12, PRESUMED, log
23). -/
def inRegion (c : Cfg) (e : Effective) (acc : Access) (va : Word) : Bool :=
  decide ((rangeCheckedAddress c e acc va).toNat < regionSize e)

/-! ## The walk's controls (R151 to R156, R159 to R162) -/

/-- Shareability attributes of walk accesses (R60, R155). -/
inductive Shareability where
  | nonShareable | outerShareable | innerShareable
deriving DecidableEq, Repr, Inhabited

/-- Cacheability attributes of walk accesses, inner or outer (R61, R62, R155). -/
inductive Cacheability where
  | nonCacheable | writeBackReadWriteAllocate | writeThroughReadAllocate | writeBackReadAllocate
deriving DecidableEq, Repr, Inhabited

/-- The value table of SH0; 0b01 is reserved (R60). -/
def decodeShareability (v : BitVec 2) : Option Shareability :=
  if v = 0b00 then some .nonShareable else if v = 0b10 then some .outerShareable
  else if v = 0b11 then some .innerShareable else none

/-- The value tables of ORGN0 and IRGN0: all four values are defined (R61, R62). -/
def decodeCacheability (v : BitVec 2) : Cacheability :=
  if v = 0b00 then .nonCacheable else if v = 0b01 then .writeBackReadWriteAllocate
  else if v = 0b10 then .writeThroughReadAllocate else .writeBackReadAllocate

/-- `T0SZ_min` (R44, R152). -/
def t0szMin (e : Effective) : Nat := if e.ds then 12 else 16

/-- The initial lookup level, where a source gives it (R64, R152, C2): below the T0SZ minimum there is no walk. -/
def initialLevel (c : Cfg) (e : Effective) : Option Int :=
  if e.t0sz.toNat < t0szMin e then none
  else if e.tg0 = .kb4 ∧ c.featLpa2 ∧ e.t0sz.toNat < 16 then some (-1)
  else if e.tg0 = .kb16 ∧ c.featLpa2 ∧ e.t0sz.toNat < 17 then some 0
  else none

/-- `PSHasMeaning(cfg, PS)` (R58). -/
def psHasMeaning (c : Cfg) (ps : BitVec 3) : Bool :=
  decide (ps.toNat ≤ 0b101) || (decide (ps = 0b110) && c.ps52Implemented) || (decide (ps = 0b111) && c.featD128)

/-- `OutputSizeBits(PS)` (R58, R154). -/
def outputSizeBits (ps : BitVec 3) : Nat := [32, 36, 40, 42, 44, 48, 52, 56].getD ps.toNat 0

/-- Output address bits [51:48] of a table base: TTBR0_EL3[5:2] under DS = 1 (R25, R154). -/
def tableBase51to48 (e : Effective) (ttbr0 : Word) : Option (BitVec 4) :=
  if e.ds then some (slice ttbr0 2 4) else none

/-- "bits[55:52] of every translation table base address are 0b0000" (R58, R154). -/
def tableBase55to52Zero (c : Cfg) (e : Effective) : Bool := decide (c.paRange = 0b0111) && decide (e.ps ≠ 0b111)

/-- The alignment in bytes of a table of `entries` entries under DS = 1: 64 for fewer than 8 (R156). With DS = 0 no source
gives one. -/
def smallTableAlignment (e : Effective) (entries : Nat) : Option Nat :=
  if e.ds ∧ entries < 8 then some 64 else none

/-- A hardware use of a descriptor bit, where HWUxx allows one (R48 to R51, R153, D26). -/
def hwuAllowed (allowed : Bool) (b : HwuBit) : Option Nat := if allowed then some (Config.hwuUse b) else none

/-- The hierarchical control bits of a Table descriptor (R52, R153). -/
structure HierarchicalControls where
  /-- APTable, 2 bits. -/
  apTable : BitVec 2
  pxnTable : Bool
  uxnTable : Bool
  nsTable : Bool
deriving DecidableEq, Repr, Inhabited

/-- The control bits that keep their effect: under HPD = 1 "the permissions are treated as if the bits are zero" for APTable,
PXNTable and UXNTable, "except NSTable" (R52, R153, R160). -/
def hierarchicalKept (e : Effective) : HierarchicalControls :=
  { apTable := if e.hpd then 0b00 else 0b11, pxnTable := !e.hpd, uxnTable := !e.hpd, nsTable := true }

/-- Everything TCR_EL3 tells one walk, decoded from the Effective values the translation sees. -/
structure WalkControls where
  /-- R161: VMSAv9-128 (true) or VMSA-64. -/
  vmsa128 : Bool
  /-- R151. -/
  granule : Granule
  /-- R150. -/
  regionSize : Nat
  /-- R157: the address that takes part in the address match. -/
  matched : Word
  /-- R150, R158. -/
  inRegion : Bool
  /-- R152. -/
  initialLevel : Option Int
  /-- R154. -/
  outputSizeBits : Nat
  /-- R154: the descriptor system of a 52-bit output address (DS). -/
  outputAddress52 : Bool
  /-- R154. -/
  tableBase51to48 : Option (BitVec 4)
  /-- R154. -/
  tableBase55to52Zero : Bool
  /-- R155. -/
  shareability : Option Shareability
  /-- R155. -/
  outer : Cacheability
  /-- R155. -/
  inner : Cacheability
  /-- R159: "Stage 1 Access flag update". -/
  accessFlagUpdate : Bool
  /-- R159: `DirtyStateManaged`. -/
  dirtyState : Bool
  /-- R159: "Hardware managed Access Flag for Table descriptors". -/
  tableAccessFlag : Bool
  /-- R160: "Hierarchical permissions are disabled." -/
  hierarchicalDisabled : Bool
  /-- R160: which hierarchical control bits keep their effect. -/
  hierarchicalKept : HierarchicalControls
  /-- R161: "Indirect permission model." -/
  indirectPermission : Bool
  /-- R161: permission overlay for EL3 accesses. -/
  permissionOverlay : Bool
  /-- R161: Attribute Indexing Extension. -/
  attributeIndexing : Bool
  /-- R161: descriptor bit[52] indicates the protected attribute. -/
  protectedBit52 : Bool
  /-- R161: the Contiguous bit of the Start Table is treated as 0. -/
  startTableContiguousZero : Bool
  /-- R153: the use hardware may make of descriptor bits 62 to 59. -/
  hwu62 : Option Nat
  hwu61 : Option Nat
  hwu60 : Option Nat
  hwu59 : Option Nat
  /-- R158. -/
  tags : TagControls
deriving DecidableEq, Repr, Inhabited

/-- The controls of a walk (R150 to R161). -/
def walkControls (c : Cfg) (e : Effective) (ttbr0 va : Word) (acc : Access) : WalkControls :=
  { vmsa128 := e.d128, granule := e.tg0, regionSize := regionSize e,
    matched := matchedAddress c e acc va, inRegion := inRegion c e acc va,
    initialLevel := initialLevel c e, outputSizeBits := outputSizeBits e.ps, outputAddress52 := e.ds,
    tableBase51to48 := tableBase51to48 e ttbr0, tableBase55to52Zero := tableBase55to52Zero c e,
    shareability := decodeShareability e.sh0, outer := decodeCacheability e.orgn0,
    inner := decodeCacheability e.irgn0, accessFlagUpdate := e.ha, dirtyState := dirtyStateManaged e,
    tableAccessFlag := e.haft, hierarchicalDisabled := e.hpd, hierarchicalKept := hierarchicalKept e,
    indirectPermission := e.pie, permissionOverlay := e.poe, attributeIndexing := e.aie, protectedBit52 := e.pnCH,
    startTableContiguousZero := e.disCH0, hwu62 := hwuAllowed e.hwu62 .b62, hwu61 := hwuAllowed e.hwu61 .b61,
    hwu60 := hwuAllowed e.hwu60 .b60, hwu59 := hwuAllowed e.hwu59 .b59, tags := tagControls c e acc va }

/-! ## Descriptor bits TCR_EL3 names (R153), of 64-bit descriptors -/

/-- Descriptor bit[52] as the protected attribute, where PnCH says it indicates one (R42, R153). -/
def descriptorProtected (e : Effective) (desc : Word) : Option Bool := if e.pnCH then some (bit desc 52) else none

/-- Output address [51:48] a descriptor gives: bits [9:8] and [49:48] under DS = 1, else 0 (R153, R154, C3). -/
def descriptorOutput51to48 (e : Effective) (desc : Word) : BitVec 4 :=
  if e.ds then slice desc 8 2 ++ slice desc 48 2 else 0

/-- The shareability field of a Block or Page descriptor for cacheable locations: SH0 under DS = 1, else the descriptor's
bits [9:8] (R44, R153). -/
def leafShareability (e : Effective) (desc : Word) : BitVec 2 := if e.ds then e.sh0 else slice desc 8 2

/-- The hierarchical control bits a Table descriptor holds: APTable[0] in bit [61] and PXNTable in bit [59]; the positions
of the others are in no source (R52, R153, log 48). -/
def storedTableControls (desc : Word) : HierarchicalControls :=
  { apTable := BitVec.ofBool (Config.tableBit .apTable1 desc) ++ BitVec.ofBool (bit desc 61)
    pxnTable := bit desc 59
    uxnTable := Config.tableBit .uxnTable desc
    nsTable := Config.tableBit .nsTable desc }

/-- The hierarchical control bits of a Table descriptor as they act (R52, R153, R160). -/
def tableControls (e : Effective) (desc : Word) : HierarchicalControls :=
  { apTable := (storedTableControls desc).apTable &&& (hierarchicalKept e).apTable
    pxnTable := (storedTableControls desc).pxnTable && (hierarchicalKept e).pxnTable
    uxnTable := (storedTableControls desc).uxnTable && (hierarchicalKept e).uxnTable
    nsTable := (storedTableControls desc).nsTable && (hierarchicalKept e).nsTable }

/-! ## Other consumers (R162, R172) -/

/-- Whether write accesses generated by RCWS at EL3 have the Reduced Coherence property (R162). -/
def rcwsReducedCoherence (e : Effective) : Bool := e.pttwi

/-- BaseADDR[52:0] of a TLBI Range argument under DS = 1; with DS = 0 the format is in no source (R172). -/
def tlbiRangeBase (e : Effective) (arg : Word) : Option (BitVec 53) :=
  if e.ds then some (slice arg 0 37 ++ (0 : BitVec 16)) else none

/-! ## The translation (R163, R223) -/

/-- What a translation gives the walk: R163's arguments and the controls decoded from `E`. It holds of TCR_EL3 only `E`, and of
the address only what takes part in the address match (R157). -/
structure WalkRequest where
  cfg : Cfg
  eff : Effective
  controls : WalkControls
  ttbr0 : Word
  mem : List Host.Cell
  va : Word
  acc : Access
deriving DecidableEq, Repr

/-- The request of one translation. "bits [63:56] of the address are ignored in the address match" where TBI applies (R157): the
address and every control are made from the matched address, so the walk has no other way to see the top byte. Under MTX the
walk still sees bits [59:56] of an address whose top byte is not ignored (log 43). The tag check of the access has the tag
controls of the address itself (`State.accessEL3`). -/
def walkRequest (c : Cfg) (e : Effective) (ttbr0 : Word) (mem : List Host.Cell) (va : Word) (acc : Access) : WalkRequest :=
  { cfg := c, eff := e, controls := walkControls c e ttbr0 (matchedAddress c e acc va) acc, ttbr0 := ttbr0, mem := mem,
    va := matchedAddress c e acc va, acc := acc }

/-- What a Canonical Tag Check is given (R43, R158): what MTX and TCMA say of the access, the virtual address with its
Logical Address Tag, the address and memory it accesses, and PSTATE, whose Tag Check Override no source explains (N44). -/
structure TagCheckRequest where
  cfg : Cfg
  pstate : PState
  tags : TagControls
  mem : List Host.Cell
  va : Word
  address : Word
deriving DecidableEq, Repr

/-- How a walk ends, as far as the model goes (R163). -/
inductive WalkResult where
  /-- An output address, and the bytes the walker wrote to tables (R159). -/
  | mapped (pa : Word) (updates : List (Word × Byte))
  /-- An end no source describes: out of range, an invalid descriptor, a permission fault (N20). -/
  | notInSource
deriving DecidableEq, Repr, Inhabited

end Sys2Proof.Machine

namespace Sys2Proof

/-- FREE VALUE: `TranslateS1_EL3`, the relation R163 and D15 leave opaque; `n` is the draw that makes it a relation. -/
opaque Config.translateS1EL3 : Machine.WalkRequest → Nat → Machine.WalkResult

/-- FREE VALUE: whether the Canonical Tag Check of an access lets it go on. What the check is, which accesses are Tag Checked
and which locations Canonically Tagged is in no source (R158, N27, log 43); `n` is the draw. -/
opaque Config.canonicalTagCheck : Machine.TagCheckRequest → Nat → Bool

end Sys2Proof

namespace Sys2Proof.Machine

/-- The output address under R154: "Output address[51:48] is 0b0000" with DS = 0 (log 23). -/
def constrainOutput (e : Effective) (pa : Word) : Word := if e.ds then pa else pa &&& ~~~ (fieldMask 51 48)

/-- The table writes R159 allows the walker: none with HA, DirtyStateManaged and HAFT all 0. -/
def allowedUpdates (e : Effective) (updates : List (Word × Byte)) : List (Word × Byte) :=
  if e.ha || dirtyStateManaged e || e.haft then updates else []

/-- How a translation ends. -/
inductive Translated where
  | mapped (pa : Word) (updates : List (Word × Byte))
  | fault (f : Fault)
  | refused (r : Refusal)
deriving DecidableEq, Repr

/-- One translation of the EL3 regime (R163): the fault below the T0SZ minimum (R152, R223), then the refusals, then the
walk. DESIGN CHOICE, log 53: the translation of a cache maintenance or address translation instruction is a memory access here,
and faults as a data access does; R223 names instruction fetches and data accesses, and N24 gives no more. -/
def translateEL3 (c : Cfg) (e : Effective) (ttbr0 : Word) (mem : List Host.Cell) (va : Word) (acc : Access) (n : Nat) :
    Translated :=
  if e.t0sz.toNat < t0szMin e then .fault (.translationFault 1 0 va acc)
  else if e.sh0 = 0b01 then .refused .reservedSH0
  else if !psHasMeaning c e.ps then .refused (.psWithoutMeaning e.ps)
  else if c.t0szMax < e.t0sz.toNat then .refused (.t0szAboveMaximum e.t0sz.toNat)
  else
    match Config.translateS1EL3 (walkRequest c e ttbr0 mem va acc) n with
    | .mapped pa updates => .mapped (constrainOutput e pa) (allowedUpdates e updates)
    | .notInSource => .refused (.walkNotInSource va)

/-- Whether an access may go on: the check is made where MTX asks for it, unless TCMA makes the access Unchecked (R158,
log 43). DESIGN CHOICE, log 54: with MTX = 0 no access is tag checked, whatever TCMA says (R46, N27). -/
def tagCheckPasses (r : TagCheckRequest) (n : Nat) : Bool :=
  !r.tags.canonicalTagCheck || r.tags.unchecked || Config.canonicalTagCheck r n

end Sys2Proof.Machine
end

