-- ==== Sys2Proof/Machine/Ops.lean ====
section
/-! DEFINITION. The shared operations: register writes, the checks every access makes, one memory access of the EL3 regime,
taking an exception to EL3, the exception return from EL3, and the Warm reset. -/

namespace Sys2Proof.Machine

/-! ## Register writes -/

/-- `TCR_EL3 <- v`: all 64 raw bits, and the TLB may hold the value from now on (R31, R170, R201). -/
def State.writeTcr (s : State) (v : Word) : State := { s with tcrEL3 := v, history := s.history ++ [v] }

/-- `SPSR_EL3 <- v`: all 64 raw bits (R90, R203). -/
def State.writeSpsr (s : State) (v : Word) : State := { s with spsrEL3 := v }

/-- An instruction completes: `pc <- pc + 4` modulo 2^64 (R23, D9, PRESUMED, log 19). Its fetch has used the draw
`s.draws`. -/
def State.complete (s : State) : State := { s with pc := s.pc + 4, draws := s.draws + 1 }

/-! ## The checks of R204 -/

/-- What the checks before an access say. -/
inductive AccessVerdict where
  | permitted | undefined | aarch32
deriving DecidableEq, Repr

/-- The checks of R204 in their order: AArch64 state alone (R189, D17), EL3 present (R3), Exception level EL3. -/
def State.accessVerdict (s : State) : AccessVerdict :=
  if s.pstate.nRW then .aarch32
  else if !s.cfg.haveEL3 then .undefined
  else if s.pstate.el ≠ .el3 then .undefined
  else .permitted

/-- Whether the fine-grained write trap of TCR_EL3 is set (R201, R204 step 3, R241). -/
def State.tcrWriteTraps (s : State) : Bool := s.cfg.featFgwte3 && s.fgwte3Tcr

/-! ## Taking an exception to EL3 (R230, R231, R239) -/

/-- Save PSTATE in SPSR_EL3 (R230, R231). -/
def State.savePState (s : State) : State := s.writeSpsr (savedPState s.cfg s.pstate)

/-- The offset from VBAR_EL3 (R239, PRESUMED, log 9). DESIGN CHOICE, log 50: 0x600 from AArch32 state whatever PSTATE.EL is, EL3
among the levels; R239 gives it for a lower level. -/
def vectorOffset (p : PState) (k : ExceptionKind) : Word :=
  (if p.nRW then 0x600 else if p.el ≠ .el3 then 0x400 else if p.sp then 0x200 else 0x000) +
  (match k with
   | .synchronous => 0x000
   | .irq => 0x080
   | .fiq => 0x100
   | .serror => 0x180)

/-- "bits[63:56] of that target address are also set to 0 before the address is stored in the PC", in a case `listed` says
the lost list holds (R56, R238, log 25). DESIGN CHOICE, log 46: TBI and TBID are picked per field from `History`. -/
def State.targetPc (s : State) (n : Nat) (listed : Bool) (a : Word) : Word :=
  if listed && tbiApplies s.cfg (s.seenEffective n) .instruction then clearTopByte a else a

/-- PSTATE on entry: EL3, SP_EL3, AArch64, D, A, I, F masked, IL and SS clear (R239, PRESUMED, log 9). A field R239 does
not name is a free value (log 10). -/
def entryPState (n : Nat) : PState :=
  { Config.unknownPState n with
    el := .el3, sp := true, nRW := false, d := true, a := true, i := true, f := true, il := false, ss := false }

/-- The whole entry, under R239's assumption: SPSR_EL3 saves PSTATE, ELR_EL3 the pc, ESR_EL3 the syndrome; PSTATE as
`entryPState`; the pc at the vector. DESIGN CHOICE, log 51: ELR_EL3 receives the current pc for every kind of exception; R239
says which address for a trapped instruction alone. -/
def State.takeExceptionToEL3 (s : State) (k : ExceptionKind) (syndrome : Word) : State :=
  { s.savePState with
    elrEL3 := s.pc
    esrEL3 := syndrome
    pstate := entryPState (s.draws + 1)
    pc := s.targetPc (s.draws + 1) s.cfg.tbiClearsEntryPc (s.vbarEL3 + vectorOffset s.pstate k)
    draws := s.draws + 2 }

/-- TAKING AN EXCEPTION TO EL3. Where the configuration takes R239's assumption the machine goes on at the vector; where it
does not, it stops in a fault that carries the state with SPSR_EL3 saved (R221, R239, D6). -/
def State.exceptionToEL3 (s : State) (k : ExceptionKind) (syndrome : Word) (stop : State → Fault) :
    Host.Outcome State Fault Refusal :=
  if s.cfg.assumesEntryR239 then .next (s.takeExceptionToEL3 k syndrome) else .fault (stop s.savePState)

/-- The exception class of a system access trap (R221, R222). -/
def sysAccessCode : BitVec 6 := 0x18

/-- ESR_EL3 for a trapped MRS or MSR (R222, PRESUMED, log 9). -/
def sysAccessSyndrome (i : Instr) : Word :=
  let p := sysRegTuple (instrSysReg i)
  placeField sysAccessCode 26 ||| placeBit true 25 ||| placeField p.op0 20 ||| placeField p.op2 17
    ||| placeField p.op1 14 ||| placeField p.crn 10 ||| placeField (BitVec.ofNat 5 (instrOperand i)) 5
    ||| placeField p.crm 1 ||| placeField (directionBit (instrDirection i)) 0

/-- `AArch64.SystemAccessTrap(EL3, 0x18)` (R221). -/
def State.systemAccessTrap (s : State) (i : Instr) : Host.Outcome State Fault Refusal :=
  s.exceptionToEL3 .synchronous (sysAccessSyndrome i) (.systemAccessTrap i .el3 sysAccessCode)

/-! ## The exception return from EL3 (R232 to R238) -/

/-- Whether "an exception return operation in EL3" using AArch64 can occur here. -/
def State.canReturnFromEL3 (s : State) : Bool :=
  s.cfg.haveEL3 && decide (s.pstate.el = .el3) && !s.pstate.nRW

/-- The return address: ELR_EL3 under R239's assumption, else a free value (R237, log 26). -/
def State.returnAddress (s : State) : Word :=
  if s.cfg.assumesEntryR239 then s.elrEL3 else Config.unknown64 (s.draws + 1)

/-- The pc after a return: the top byte of the return address is cleared where the return is to EL3, the lost list holds
this case, and TBI applies (R238). -/
def State.returnPc (s : State) : Word :=
  s.targetPc s.draws
    (s.cfg.tbiClearsReturnPc && !spsrIsAArch32 s.spsrEL3 && decide (spsrTargetEL s.spsrEL3 = .el3)) s.returnAddress

/-- The state after a legal return: PSTATE restored (R232, R233), SPSR_EL3 UNKNOWN (R92, R235), the conditional copies
drawn (R234). -/
def State.returnedFromEL3 (s : State) : State :=
  { s with
    pstate := restoredPState s.cfg s.spsrEL3 (Config.unknownBit s.draws) (Config.unknownBit (s.draws + 1)) s.pstate
    spsrEL3 := Config.unknown64 s.draws
    pc := s.returnPc
    draws := s.draws + 2 }

/-- AN EXCEPTION RETURN FROM EL3 (R232, R233), or the illegal return event (R236, D21). DESIGN CHOICE, log 56: it is made whatever
PSTATE.EXLOCK holds (R116, N30). -/
def State.exceptionReturn (s : State) : Host.Outcome State Fault Refusal :=
  if !s.canReturnFromEL3 then .refused (.eventNotPossible .exceptionReturn)
  else if illegalReturn s.cfg s.spsrEL3 then .fault (.illegalReturn s.spsrEL3)
  else .next s.returnedFromEL3

/-! ## Warm reset (R260 to R264) -/

/-- A Warm reset: TCR_EL3 and SPSR_EL3 UNKNOWN, `History` restarted, everything else as the launch premises say (R261 to
R263). Memory and the environment's schedule are as they were (log 33). -/
def State.warmReset (s : State) : State :=
  State.ofLaunch s.cfg (Config.unknown64 s.draws) (Config.unknown64 (s.draws + 1)) s.mem s.events (s.draws + 2)

/-! ## One memory access at EL3 -/

/-- The walker's table writes (R159). DESIGN CHOICE, log 55: all of one walk's land at once, and every later fetch, walk and tag
check sees them (N26, N36). -/
def State.withUpdates (s : State) (updates : List (Word × Byte)) : State :=
  { s with mem := Memory.writeAll s.mem updates }

/-- What the Canonical Tag Check of an access that has reached the address `pa` is given. -/
def State.tagCheckRequest (s : State) (tags : TagControls) (va pa : Word) : TagCheckRequest :=
  { cfg := s.cfg, pstate := s.pstate, tags := tags, mem := s.mem, va := va, address := pa }

/-- The last part of an access: its tag check, at the address it has reached (R158). DESIGN CHOICE, log 49: TCMA leaves the
check out with the regime disabled too. -/
def State.checkTags (s : State) (tags : TagControls) (n : Nat) (va pa : Word) :
    Host.Outcome (Word × State) Fault Refusal :=
  if tagCheckPasses (s.tagCheckRequest tags va pa) n then .next (pa, s) else .refused (.tagCheckNotInSource va)

/-- The address used where no translation is made: without its top byte where TBI applies, and without the Logical Address
Tag where MTX acts (R157, R158, R171, log 24, log 43). Both act with the regime disabled. -/
def State.untranslatedAddress (s : State) (n : Nat) (va : Word) (acc : Access) : Word :=
  rangeCheckedAddress s.cfg (s.seenEffective n) acc va

/-- The output address of one memory access made at EL3 in AArch64 state. With the regime disabled no translation is made
(R171, log 24). With it enabled, a translation (R163). Either way MTX and TCMA act on the access (R43, R158). DESIGN CHOICE,
log 46: TBI, TBID, MTX and TCMA are taken from `History` where no translation is made too. DESIGN CHOICE, log 49: TCMA acts with
the regime disabled (R46, R158, against R171's last sentence). DESIGN CHOICE, log 52: the translation's fault and refusals come
before the tag check (R225, R226). DESIGN CHOICE, log 45: the tag check sees memory after the walker's table writes. -/
def State.accessEL3 (s : State) (n : Nat) (va : Word) (acc : Access) : Host.Outcome (Word × State) Fault Refusal :=
  if !s.regimeEnabled then
    s.checkTags (tagControls s.cfg (s.seenEffective n) acc va) n va (s.untranslatedAddress n va acc)
  else
    match translateEL3 s.cfg (s.seenEffective n) s.ttbr0EL3 s.mem va acc n with
    | .mapped pa updates =>
      (s.withUpdates updates).checkTags (tagControls s.cfg (s.seenEffective n) acc va) n va pa
    | .fault f => .fault f
    | .refused r => .refused r

end Sys2Proof.Machine
end

