-- ==== Sys2Proof/Machine/Sysreg.lean ====
section
/-! DEFINITION. The meanings of the four system register access instructions (R200 to R206): one definition each, over the
shared checks of R204. -/

namespace Sys2Proof.Machine

/-- `MRS <Xt>, TCR_EL3` (R200): `x[t] <- ReadView(cfg, TCR_EL3.raw)`. -/
def execMrsTcrEL3 (t : Nat) (s : State) : Host.Outcome State Fault Refusal :=
  match s.accessVerdict with
  | .aarch32 => .refused .aarch32State
  | .undefined => .fault (.undefined (.mrsTcrEL3 t))
  | .permitted => .next (s.writeX t (tcrReadView s.cfg s.tcrEL3)).complete

/-- `MSR TCR_EL3, <Xt>` (R201): the fine-grained write trap, else `TCR_EL3.raw <- x[t]`. -/
def execMsrTcrEL3 (t : Nat) (s : State) : Host.Outcome State Fault Refusal :=
  match s.accessVerdict with
  | .aarch32 => .refused .aarch32State
  | .undefined => .fault (.undefined (.msrTcrEL3 t))
  | .permitted =>
    if s.tcrWriteTraps then s.systemAccessTrap (.msrTcrEL3 t) else .next (s.writeTcr (s.readX t)).complete

/-- `MRS <Xt>, SPSR_EL3` (R202): `x[t] <- ReadView(cfg, SPSR_EL3.raw)`. -/
def execMrsSpsrEL3 (t : Nat) (s : State) : Host.Outcome State Fault Refusal :=
  match s.accessVerdict with
  | .aarch32 => .refused .aarch32State
  | .undefined => .fault (.undefined (.mrsSpsrEL3 t))
  | .permitted => .next (s.writeX t (spsrReadView s.cfg s.spsrEL3)).complete

/-- `MSR SPSR_EL3, <Xt>` (R203, D7, log 21): `SPSR_EL3.raw <- x[t]`, with no trap. -/
def execMsrSpsrEL3 (t : Nat) (s : State) : Host.Outcome State Fault Refusal :=
  match s.accessVerdict with
  | .aarch32 => .refused .aarch32State
  | .undefined => .fault (.undefined (.msrSpsrEL3 t))
  | .permitted => .next (s.writeSpsr (s.readX t)).complete

end Sys2Proof.Machine
end

