-- ==== Sys2Proof/Machine/Dispatch.lean ====
section
/-! DEFINITION. exec: one arm per instruction. -/

namespace Sys2Proof.Machine

def exec (i : Instr) (s : State) : Host.Outcome State Fault Refusal :=
  match i with
  | .mrsTcrEL3 t => Sys2Proof.Machine.execMrsTcrEL3 t s
  | .msrTcrEL3 t => Sys2Proof.Machine.execMsrTcrEL3 t s
  | .mrsSpsrEL3 t => Sys2Proof.Machine.execMrsSpsrEL3 t s
  | .msrSpsrEL3 t => Sys2Proof.Machine.execMsrSpsrEL3 t s

end Sys2Proof.Machine
end

