-- ==== Sys2Proof/Machine/Events.lean ====
section
/-! DEFINITION. What each event of the environment does (log 13): the events the spec describes and gives no encoding. -/

namespace Sys2Proof.Machine

/-- Whether an exception can be taken to EL3 here: EL3 is present, and an AArch32 source state is supported (R231). DESIGN
CHOICE, log 44: no mask of PSTATE (A, I, F, ALLINT, D, PM) holds an SError, IRQ or FIQ event off (R227, N44). -/
def State.canEnterEL3 (s : State) : Bool := s.cfg.haveEL3 && (!s.pstate.nRW || s.cfg.aarch32Supported)

/-- A memory access of the EL3 regime by an instruction the spec names and does not define (R223): its translation alone,
made at EL3 in AArch64 state. -/
def State.environmentAccess (s : State) (va : Word) (acc : Access) : Host.Outcome State Fault Refusal :=
  if !s.canReturnFromEL3 then .refused (.eventNotPossible (.access va acc))
  else
    match s.accessEL3 s.draws va acc with
    | .next (_, s') => .next { s' with draws := s'.draws + 1 }
    | .fault f => .fault f
    | .refused r => .refused r

/-- One event, taken whatever the masks of PSTATE hold (log 44). -/
def State.handleEvent (s : State) : Event → Host.Outcome State Fault Refusal
  | .warmReset => .next s.warmReset
  | .exceptionReturn => s.exceptionReturn
  | .exceptionToEL3 k syndrome =>
    if s.canEnterEL3 then s.exceptionToEL3 k syndrome (.exceptionToEL3 k)
    else .refused (.eventNotPossible (.exceptionToEL3 k syndrome))
  | .access va acc => s.environmentAccess va acc

end Sys2Proof.Machine
end

