-- ==== Sys2Proof/Machine/Fetch.lean ====
section
/-! DEFINITION. Fetching an instruction's four bytes at the pc (R164, R165, R223, R226, D10), and placing an instruction
where the next fetch reads it. -/

namespace Sys2Proof.Machine

/-- How many bytes an instruction has (R165, G11). -/
def instrBytes : Nat := 4

/-- Whether the pc is a multiple of 4 (R165, D10). -/
def pcAligned (pc : Word) : Bool := decide (slice pc 0 2 = 0)

/-- Where in memory the fetch reads, and the state after its translation. At EL3 the fetch is an access of the EL3 regime
(R223); below EL3 the spec gives no translation and the pc itself is used (log 24). -/
def State.fetchAccess (s : State) : Host.Outcome (Word × State) Fault Refusal :=
  if s.pstate.el = .el3 then s.accessEL3 s.draws s.pc .instruction else .next (s.pc, s)

/-- Fetch: the four bytes of the next instruction and the state they are fetched in. "An instruction that cannot be
fetched does not execute" (R226). DESIGN CHOICE, log 45: the walker's table writes land before the bytes are read. DESIGN CHOICE, log 52:
a misaligned pc is refused before a translation is made. -/
def State.fetch (s : State) : Host.Outcome (List Byte × State) Fault Refusal :=
  if s.pstate.nRW then .refused .aarch32State
  else if !pcAligned s.pc then .refused (.misalignedPc s.pc)
  else
    match s.fetchAccess with
    | .next (pa, s') =>
      match Memory.readBytes s'.mem pa instrBytes with
      | .ok bs => .next (bs, s')
      | .error a => .fault (.unwrittenMemory a)
    | .fault f => .fault f
    | .refused r => .refused r

/-- The state in which the next step is an untranslated fetch: no event to come, AArch64 state, an aligned pc, the EL3
translation regime disabled (log 34). -/
def State.readyToFetch (s : State) : State :=
  { s with
    events := []
    pstate := { s.pstate with nRW := false }
    pc := s.pc &&& ~~~ 3
    regimeEnabled := false }

/-- The physical address of the next fetch with the EL3 translation regime disabled. -/
def State.plainFetchAddress (s : State) : Word :=
  if s.pstate.el = .el3 then s.untranslatedAddress s.draws s.pc .instruction else s.pc

/-- Bytes placed where the next step fetches its instruction. -/
def State.placeInstruction (s : State) (bs : List Byte) : State :=
  { s.readyToFetch with mem := Memory.writeBytes s.mem s.readyToFetch.plainFetchAddress bs }

end Sys2Proof.Machine
end

