-- ==== Sys2Proof/Machine/Step.lean ====
section
/-! DEFINITION. One step: the environment's next event, or else one instruction fetched, decoded and run. -/

namespace Sys2Proof.Machine

/-- Decode fetched bytes and run the instruction; bytes that spell none are refused (R185). -/
def runBytes (bs : List Byte) (s : State) : Host.Outcome State Fault Refusal :=
  match decode bs with
  | .ok (i, _) => exec i s
  | .error e => .refused (.undecodable e)

/-- One instruction (R204, R206). DESIGN CHOICE, log 47: no field of PSTATE but EL and nRW decides whether it is fetched and
run. What IL, SS, D, PM, PPEND (R242, N44), BTYPE, DIT, UAO, PAN, SSBS and the others (N30) do while in PSTATE is in no
source. -/
def stepInstr (s : State) : Host.Outcome State Fault Refusal :=
  match s.fetch with
  | .next (bs, s') => runBytes bs s'
  | .fault f => .fault f
  | .refused r => .refused r

/-- One step of the machine: the environment's next event if there is one (log 13), else one instruction. -/
def step (s : State) : Host.Outcome State Fault Refusal :=
  match s.events with
  | e :: rest => State.handleEvent { s with events := rest } e
  | [] => stepInstr s

/-- `s` with an instruction of the opcode table stored where `step` fetches its next instruction (log 34). -/
def State.withFetchWord (s : State) (nbits w : Nat) : State := s.placeInstruction (bytesOfWord (tableWord nbits w))

end Sys2Proof.Machine
end

