-- ==== Sys2Proof/Safety.lean ====
section
/-! DEFINITION. What counts as a well-formed configuration, a sound state and a safe step, in the terms the statements use. -/

namespace Sys2Proof.Machine

/-- The constraints on a configuration: some granule is implemented and every fallback is an implemented one (R5, R59);
DS = 1 needs FEAT_LVA (R5, R44); T0SZ_max is at most 63 (R5); the launch state is an implemented Exception level in AArch64
state (R263, R240). -/
abbrev CfgSound (c : Cfg) : Prop :=
  implementsGranule c c.tg0Fallback.at00 = true ∧ implementsGranule c c.tg0Fallback.at01 = true ∧
  implementsGranule c c.tg0Fallback.at10 = true ∧ implementsGranule c c.tg0Fallback.at11 = true ∧
  (c.featLpa2 = true → c.featLva = true) ∧ c.t0szMax ≤ 63 ∧
  implementedEL c c.launch.pstate.el = true ∧ c.launch.pstate.nRW = false

/-- The invariant of the machine: the memory is in canonical form; the newest entry of `History` is TCR_EL3 (R170); the PE
is at an implemented Exception level (R240) and in AArch32 state only where AArch32 is supported (R91, R236); and the
configuration is sound. -/
structure State.Inv (s : State) : Prop where
  memory : Memory.wf s.mem = true
  history : s.history.getLast? = some s.tcrEL3
  level : implementedEL s.cfg s.pstate.el = true
  aarch32 : s.pstate.nRW = true → s.cfg.aarch32Supported = true
  config : CfgSound s.cfg

/-- A step is safe when it answers a next state. -/
def StepSafe (s : State) : Prop := ∃ s', step s = .next s'

/-- The premise every statement about "the next instruction" names: the environment does nothing first (R227, D18). -/
abbrev NoEvent (s : State) : Prop := s.events = []

/-- At EL3 of a PE that has EL3, in AArch64 state: where the four instructions execute (R204, D17). -/
abbrev AtEL3 (s : State) : Prop :=
  s.cfg.haveEL3 = true ∧ s.pstate.el = .el3 ∧ s.pstate.nRW = false

/-- The environment cannot make the TLB choose: TCR_EL3 has held one value since launch or reset (R170). -/
abbrev OneTcrValue (s : State) : Prop := s.history = [s.tcrEL3]

/-- `IsReservedNow(cfg, raw, b)` of R32, bit by bit from the layout table R30. -/
def tcrReservedNow (c : Cfg) (raw : Word) (b : Nat) : Bool :=
  if 44 ≤ b then true
  else if b = 43 then !(c.featD128 && effD128 c raw)
  else if b = 42 then !c.featHaft
  else if b = 41 then !c.featThe
  else if b = 40 ∨ b = 39 then true
  else if b = 38 then !c.featD128
  else if b = 37 then !c.featAie
  else if b = 36 then !c.featS1poe
  else if b = 35 then !c.featS1pie || effD128 c raw
  else if b = 34 then !c.featThe || effD128 c raw
  else if b = 33 then !(c.featMteNoAddressTags || c.featMteCanonicalTags)
  else if b = 32 then !(c.featLpa2 && (!c.featD128 || !effD128 c raw) && decide (effTG0 c raw ≠ .kb64))
  else if b = 31 then true
  else if b = 30 then !c.featMte2
  else if b = 29 then !c.featPauth
  else if 25 ≤ b ∧ b ≤ 28 then !c.featHpds2
  else if b = 24 then !c.featHpds
  else if b = 23 then true
  else if b = 22 ∨ b = 21 then !c.featHafdbs
  else if b = 19 then true
  else if b = 7 ∨ b = 6 then true
  else false

/-- Whether `ReservedKind(b)` of R32 is RES1: bits 31 and 23, and bits 35 and 34 when they are reserved because
Eff.D128 = 1 while their feature is implemented. -/
def tcrReservedAsOne (c : Cfg) (raw : Word) (b : Nat) : Bool :=
  b = 31 || b = 23 || (b = 35 && c.featS1pie && effD128 c raw) || (b = 34 && c.featThe && effD128 c raw)

/-- Which bits of SPSR_EL3 are reserved now, bit by bit from the layout tables R93 and R114: the AArch32 layout where AArch32
is supported and bit 4 is set (R91, log 20). E is reserved where the implementation supports one byte order alone (R107, log
36). -/
def spsrReservedNow (c : Cfg) (raw : Word) (b : Nat) : Bool :=
  if c.aarch32Supported = true ∧ bit raw 4 = true then
    if 32 ≤ b then true
    else if b = 24 then !c.featDit
    else if b = 23 then !c.featSsbs
    else if b = 22 then !c.featPan
    else if b = 9 then
      !(c.bigEndian.el0 || c.bigEndian.el1 || c.bigEndian.el2 || c.bigEndian.el3) ||
      !(c.littleEndian.el0 || c.littleEndian.el1 || c.littleEndian.el2 || c.littleEndian.el3)
    else false
  else
    if 35 ≤ b then true
    else if b = 34 then !c.featGcs
    else if b = 33 then !c.featSebep
    else if b = 32 then !c.featEbep
    else if b = 27 ∨ b = 26 then true
    else if b = 25 then !(c.featMte && (c.featMte2 || !c.tcoRes0WithoutMte2))
    else if b = 24 then !c.featDit
    else if b = 23 then !c.featUao
    else if b = 22 then !c.featPan
    else if 14 ≤ b ∧ b ≤ 19 then true
    else if b = 13 then !c.featNmi
    else if b = 12 then !c.featSsbs
    else if b = 11 ∨ b = 10 then !c.featBti
    else if b = 5 then true
    else false

/-- Whether a reserved bit of SPSR_EL3 is RES1: E in the AArch32 layout, where big-endian is supported and little-endian is
not (R107, log 36). -/
def spsrReservedAsOne (c : Cfg) (raw : Word) (b : Nat) : Bool :=
  c.aarch32Supported && bit raw 4 && decide (b = 9) &&
    (c.bigEndian.el0 || c.bigEndian.el1 || c.bigEndian.el2 || c.bigEndian.el3) &&
    !(c.littleEndian.el0 || c.littleEndian.el1 || c.littleEndian.el2 || c.littleEndian.el3)

/-- The pc after the address `a` is stored in it: its bits [63:56] are 0 where `cleared`, else it is `a` (R56, R238). -/
abbrev PcHolds (pc a : Word) (cleared : Bool) : Prop :=
  if cleared = true then slice pc 56 8 = 0 ∧ slice pc 0 56 = slice a 0 56 else pc = a

/-- What R265 asks of a value software writes to TCR_EL3 before it relies on a translation: reserved bits as they should
be, an implemented granule, SH0 and PS with a meaning, and T0SZ in its bounds. -/
def tcrWellProgrammed (c : Cfg) (v : Word) : Prop :=
  v &&& tcrRes0 c v = 0 ∧ v &&& tcrRes1 c v = tcrRes1 c v ∧
  (decodeTG0 (slice v 14 2)).any (implementsGranule c) = true ∧
  slice v 12 2 ≠ 0b01 ∧ psHasMeaning c (slice v 16 3) = true ∧
  t0szMin (effective c v) ≤ (slice v 0 6).toNat ∧ (slice v 0 6).toNat ≤ c.t0szMax

end Sys2Proof.Machine
end

