-- ==== Sys2Proof/Certificates/Slice0/Obligations.lean ====
section
/-! DEFINITION. The statements for the provers. Each formalises a rule of spec/ its docstring names, or says that it rests on
a choice of the model and names the log entry. "DEDUCED", "PRESUMED" and "DESIGN CHOICE" are the marks of that entry. -/

open Sys2Proof Sys2Proof.Machine

/-! ## Encoding -/

/-- R184, R185 (general knowledge, log 17; byte order log 16): decoding the bytes of a well-formed instruction gives the
instruction back, and leaves the bytes after it. -/
def Obligations.DecodeInvertsEncode : Prop :=
  ∀ (i : Instr) (rest : List Byte), WellFormed i → decode (encodeBytes i ++ rest) = .ok (i, rest)

/-- R184, R185, R191 (log 17): a word that decodes is the encoding of the well-formed instruction it decodes to. No two
words spell one instruction, and no bit is dropped. -/
def Obligations.EncodeInvertsDecode : Prop :=
  ∀ (w : InstrWord) (i : Instr), decodeWord w = some i → WellFormed i ∧ encode i = w

/-- R185 with the match values of R184 (log 17): a word spells an instruction exactly when it equals the match under the
mask 0xFFFFFFE0, and then `t` is its bits [4:0]. -/
def Obligations.WordsSpellByMaskAndMatch : Prop :=
  ∀ (w : InstrWord) (t : Nat),
    (decodeWord w = some (.mrsTcrEL3 t) ↔ w &&& 0xFFFFFFE0 = 0xD53E2040 ∧ t = (w &&& 0x1F).toNat) ∧
    (decodeWord w = some (.msrTcrEL3 t) ↔ w &&& 0xFFFFFFE0 = 0xD51E2040 ∧ t = (w &&& 0x1F).toNat) ∧
    (decodeWord w = some (.mrsSpsrEL3 t) ↔ w &&& 0xFFFFFFE0 = 0xD53E4000 ∧ t = (w &&& 0x1F).toNat) ∧
    (decodeWord w = some (.msrSpsrEL3 t) ↔ w &&& 0xFFFFFFE0 = 0xD51E4000 ∧ t = (w &&& 0x1F).toNat)

/-- R185, U21 (log 17): a word that equals none of the four matches is rejected as `not_in_spec`, and an instruction step
on its bytes is refused with that name, never UNDEFINED. -/
def Obligations.OtherWordsAreRefused : Prop :=
  ∀ (w : InstrWord) (rest : List Byte) (s : State),
    w &&& 0xFFFFFFE0 ≠ 0xD53E2040 → w &&& 0xFFFFFFE0 ≠ 0xD51E2040 → w &&& 0xFFFFFFE0 ≠ 0xD53E4000 →
    w &&& 0xFFFFFFE0 ≠ 0xD51E4000 →
    decode (bytesOfWord w ++ rest) = .error (.notInSpec w) ∧
    runBytes (bytesOfWord w) s = .refused (.undecodable (.notInSpec w))

/-- Decoding vectors of 95_test_vectors.md 2.1, four that decode and four that do not. The words rest on the layout of R184,
general knowledge (PRESUMED, log 17); R185 is the decoder's rule. -/
def Obligations.SampleWordsDecode : Prop :=
  decodeWord 0xD53E2045 = some (.mrsTcrEL3 5) ∧ decodeWord 0xD51E205E = some (.msrTcrEL3 30) ∧
  decodeWord 0xD53E4002 = some (.mrsSpsrEL3 2) ∧ decodeWord 0xD51E4003 = some (.msrSpsrEL3 3) ∧
  decodeWord 0xD53E2020 = none ∧ decodeWord 0xD53E2140 = none ∧ decodeWord 0xD53C2040 = none ∧
  decodeWord 0xD51E4020 = none

/-! ## The four instructions -/

/-- R200: at EL3, `MRS <Xt>, TCR_EL3` completes for every t in 0..30. x[t] becomes the read view of TCR_EL3, every other
general register and every other piece of state, memory among it, is as it was; the pc and the model's own draw counter
may change. (The read view is R32's, log 20.) -/
def Obligations.MrsTcrEL3WritesReadView : Prop :=
  ∀ (s : State) (t : Nat), AtEL3 s → t < 31 →
    ∃ s', exec (.mrsTcrEL3 t) s = .next s' ∧ s'.readX t = tcrReadView s.cfg s.tcrEL3 ∧
      (∀ k, k ≠ t → s'.readX k = s.readX k) ∧ (∀ a, Memory.read s'.mem a = Memory.read s.mem a) ∧
      s' = { s with x := s'.x, pc := s'.pc, draws := s'.draws }

/-- R201: at EL3 with the fine-grained write trap not set, `MSR TCR_EL3, <Xt>` completes for every t and every value: all
64 bits of x[t] are stored raw (decision D4, log 20), `History` gains the value (decision D12, log 22), and every other
piece of state is as it was but the pc and the draw counter. -/
def Obligations.MsrTcrEL3StoresAll64Bits : Prop :=
  ∀ (s : State) (t : Nat), AtEL3 s → ¬ (s.cfg.featFgwte3 = true ∧ s.fgwte3Tcr = true) →
    ∃ s', exec (.msrTcrEL3 t) s = .next s' ∧ s'.tcrEL3 = s.readX t ∧ s'.history = s.history ++ [s.readX t] ∧
      (∀ a, Memory.read s'.mem a = Memory.read s.mem a) ∧
      s' = { s with tcrEL3 := s'.tcrEL3, history := s'.history, pc := s'.pc, draws := s'.draws }

/-- R202: at EL3, `MRS <Xt>, SPSR_EL3` completes for every t in 0..30. x[t] becomes the read view of SPSR_EL3 (reserved bits
and the layout read: decision D4, log 20; the E bit: log 36; bit by bit in `SpsrReadViewBitByBit`); every other piece of
state is as it was but the pc and the draw counter. For t = 31 see `ZeroRegisterDiscardsAndReadsZero`. -/
def Obligations.MrsSpsrEL3WritesReadView : Prop :=
  ∀ (s : State) (t : Nat), AtEL3 s → t < 31 →
    ∃ s', exec (.mrsSpsrEL3 t) s = .next s' ∧ s'.readX t = spsrReadView s.cfg s.spsrEL3 ∧
      (∀ k, k ≠ t → s'.readX k = s.readX k) ∧ (∀ a, Memory.read s'.mem a = Memory.read s.mem a) ∧
      s' = { s with x := s'.x, pc := s'.pc, draws := s'.draws }

/-- R203, decision D7 (log 21; the source's pseudocode is lost): at EL3, `MSR SPSR_EL3, <Xt>` completes for every t and
every value, with the fine-grained trap of TCR_EL3 set or not. D7's named premise is that no such trap applies to
SPSR_EL3. -/
def Obligations.MsrSpsrEL3StoresAll64Bits : Prop :=
  ∀ (s : State) (t : Nat), AtEL3 s →
    ∃ s', exec (.msrSpsrEL3 t) s = .next s' ∧ s'.spsrEL3 = s.readX t ∧
      (∀ a, Memory.read s'.mem a = Memory.read s.mem a) ∧
      s' = { s with spsrEL3 := s'.spsrEL3, pc := s'.pc, draws := s'.draws }

/-- R22, decision D8 (PRESUMED, log 18): register number 31 is the zero register. An MRS of either register to it
completes and writes no general register; an MSR from it stores 0. That MSR SPSR_EL3 completes is decision D7 (log 21), whose
named premise is that no fine-grained write trap applies to SPSR_EL3. -/
def Obligations.ZeroRegisterDiscardsAndReadsZero : Prop :=
  ∀ (s : State), AtEL3 s →
    (∃ s', exec (.mrsTcrEL3 31) s = .next s' ∧ s' = { s with pc := s'.pc, draws := s'.draws }) ∧
    (∃ s', exec (.mrsSpsrEL3 31) s = .next s' ∧ s' = { s with pc := s'.pc, draws := s'.draws }) ∧
    (s.tcrWriteTraps = false → ∃ s', exec (.msrTcrEL3 31) s = .next s' ∧ s'.tcrEL3 = 0) ∧
    (∃ s', exec (.msrSpsrEL3 31) s = .next s' ∧ s'.spsrEL3 = 0)

/-- R23, decision D9 (PRESUMED, log 19): an instruction that answers a next state, other than a trapped write of TCR_EL3,
leaves the pc 4 higher, modulo 2^64. -/
def Obligations.CompletedInstructionAdvancesPcByFour : Prop :=
  ∀ (i : Instr) (s s' : State), exec i s = .next s' →
    (s.tcrWriteTraps = true → ∀ t, i ≠ .msrTcrEL3 t) → s'.pc = s.pc + 4

/-- R205: what an instruction leaves alone when it answers a next state, other than by the trap: PSTATE (so every flag),
every byte of memory, the exception registers, every general register but the one an MRS names, every system register but
the one an MSR names, the configuration and everything the environment holds. -/
def Obligations.InstructionFrame : Prop :=
  ∀ (i : Instr) (s s' : State), exec i s = .next s' →
    (s.tcrWriteTraps = true → ∀ t, i ≠ .msrTcrEL3 t) →
    s'.pstate = s.pstate ∧ (∀ a, Memory.read s'.mem a = Memory.read s.mem a) ∧
    (∀ k, i ≠ .mrsTcrEL3 k → i ≠ .mrsSpsrEL3 k → s'.readX k = s.readX k) ∧
    ((∀ t, i ≠ .msrTcrEL3 t) → s'.tcrEL3 = s.tcrEL3 ∧ s'.history = s.history) ∧
    ((∀ t, i ≠ .msrSpsrEL3 t) → s'.spsrEL3 = s.spsrEL3) ∧
    s'.cfg = s.cfg ∧ s'.fgwte3Tcr = s.fgwte3Tcr ∧ s'.ttbr0EL3 = s.ttbr0EL3 ∧ s'.regimeEnabled = s.regimeEnabled ∧
    s'.vbarEL3 = s.vbarEL3 ∧ s'.elrEL3 = s.elrEL3 ∧ s'.esrEL3 = s.esrEL3 ∧ s'.events = s.events

/-- R206, R271, decision D13 (log 37): an MRS that follows an MSR of the same register returns the written value through
the read view, for both registers and every pair of operands. -/
def Obligations.ReadAfterWriteReturnsWritten : Prop :=
  ∀ (s s₁ s₂ : State) (t u : Nat), u < 31 →
    (s.tcrWriteTraps = false → exec (.msrTcrEL3 t) s = .next s₁ → exec (.mrsTcrEL3 u) s₁ = .next s₂ →
      s₂.readX u = tcrReadView s.cfg (s.readX t)) ∧
    (exec (.msrSpsrEL3 t) s = .next s₁ → exec (.mrsSpsrEL3 u) s₁ = .next s₂ →
      s₂.readX u = spsrReadView s.cfg (s.readX t))

/-- R188, R220, R204, R226: without EL3, and below EL3, each of the four instructions is UNDEFINED, whether or not the
fine-grained write trap is set. (In AArch64 state; AArch32 state is the next statement's.) That UNDEFINED is a fault is decision
D5 (log 11); that MSR SPSR_EL3, whose pseudocode is lost, is UNDEFINED below EL3 is decision D7 (R203, log 21). -/
def Obligations.AccessBelowEL3IsUndefined : Prop :=
  ∀ (i : Instr) (s : State), s.pstate.nRW = false → (s.cfg.haveEL3 = false ∨ s.pstate.el ≠ .el3) →
    exec i s = .fault (.undefined i)

/-- R189, decision D17 (log 27): in AArch32 state every instruction is refused, and so is a step that no event precedes. -/
def Obligations.AArch32StateIsRefused : Prop :=
  ∀ (i : Instr) (s : State), s.pstate.nRW = true →
    exec i s = .refused .aarch32State ∧ (NoEvent s → step s = .refused .aarch32State)

/-! ## The fine-grained write trap -/

/-- R221, R230, R231, decision D6 (log 12): where the configuration does not take R239's assumption, an exception taken to
EL3 stops in the state where SPSR_EL3 holds the saved PSTATE and nothing else has changed. A trapped write of TCR_EL3 stops
with the fault that names the instruction, the target EL3 and the code 0x18; an exception event (log 13) with the fault that
names its kind, whatever the masks PSTATE.A, I, F and ALLINT hold (the model's choice, log 44). -/
def Obligations.EntryWithoutAssumptionStopsWithSavedState : Prop :=
  (∀ (s : State) (t : Nat), AtEL3 s → s.cfg.featFgwte3 = true → s.fgwte3Tcr = true →
    s.cfg.assumesEntryR239 = false →
    exec (.msrTcrEL3 t) s =
      .fault (.systemAccessTrap (.msrTcrEL3 t) .el3 0x18 { s with spsrEL3 := savedPState s.cfg s.pstate })) ∧
  (∀ (s : State) (k : ExceptionKind) (y : Word) (rest : List Event), s.events = .exceptionToEL3 k y :: rest →
    s.cfg.haveEL3 = true → (s.pstate.nRW = true → s.cfg.aarch32Supported = true) → s.cfg.assumesEntryR239 = false →
    step s = .fault (.exceptionToEL3 k { s with events := rest, spsrEL3 := savedPState s.cfg s.pstate }))

/-- R221, R230, and R239 and R222 as the named assumption (PRESUMED, log 9): where the configuration takes it, a trapped
write of TCR_EL3 enters the handler at EL3. TCR_EL3 and `History` are not written; SPSR_EL3 holds the saved PSTATE, with
M[3:2] = 0b11; ELR_EL3 is the address of the trapped instruction; PSTATE is as R239 says; the pc is VBAR_EL3 plus 0x200
from SP_EL3 and 0x000 from SP_EL0, with its top byte 0 where TBI applies to instruction addresses and the lost list of R238
holds the entry (`tbiClearsEntryPc`, log 25; TBI as picked from `History`, log 46), and whole where not; memory and the
general registers are as they were. -/
def Obligations.TrappedWriteEntersHandler : Prop :=
  ∀ (s : State) (t : Nat), AtEL3 s → s.cfg.featFgwte3 = true → s.fgwte3Tcr = true →
    s.cfg.assumesEntryR239 = true →
    ∃ s', exec (.msrTcrEL3 t) s = .next s' ∧
      s'.tcrEL3 = s.tcrEL3 ∧ s'.history = s.history ∧ s'.spsrEL3 = savedPState s.cfg s.pstate ∧
      slice s'.spsrEL3 2 2 = 0b11 ∧ s'.elrEL3 = s.pc ∧ s'.esrEL3 = sysAccessSyndrome (.msrTcrEL3 t) ∧
      s'.pstate.el = .el3 ∧ s'.pstate.sp = true ∧ s'.pstate.nRW = false ∧
      (s'.pstate.d && s'.pstate.a && s'.pstate.i && s'.pstate.f) = true ∧
      s'.pstate.il = false ∧ s'.pstate.ss = false ∧
      PcHolds s'.pc (s.vbarEL3 + if s.pstate.sp then 0x200 else 0x000)
        (s.cfg.tbiClearsEntryPc && tbiApplies s.cfg (s.seenEffective (s.draws + 1)) .instruction) ∧
      s'.x = s.x ∧ (∀ a, Memory.read s'.mem a = Memory.read s.mem a)

/-- R222 (PRESUMED, log 9): the fields of the syndrome of a trapped access, for every well-formed instruction. -/
def Obligations.TrapSyndromeFields : Prop :=
  ∀ (i : Instr), WellFormed i →
    slice (sysAccessSyndrome i) 26 6 = 0x18 ∧ bit (sysAccessSyndrome i) 25 = true ∧
    slice (sysAccessSyndrome i) 20 2 = 0b11 ∧ slice (sysAccessSyndrome i) 17 3 = (sysRegTuple (instrSysReg i)).op2 ∧
    slice (sysAccessSyndrome i) 14 3 = 0b110 ∧ slice (sysAccessSyndrome i) 10 4 = (sysRegTuple (instrSysReg i)).crn ∧
    (slice (sysAccessSyndrome i) 5 5).toNat = instrOperand i ∧ slice (sysAccessSyndrome i) 1 4 = 0b0000 ∧
    slice (sysAccessSyndrome i) 0 1 = directionBit (instrDirection i) ∧ slice (sysAccessSyndrome i) 32 32 = 0

/-! ## TCR_EL3: the read view and the Effective values -/

/-- R32: the read view agrees, bit by bit, with the loop of the rule: PTTWI stuck at 0, TG0 as the size chosen, a reserved
bit as stored or as its reserved value, any other bit as written. -/
def Obligations.TcrReadViewBitByBit : Prop :=
  ∀ (c : Cfg) (raw : Word) (b : Nat), b < 64 →
    bit (tcrReadView c raw) b =
      (if b = 41 ∧ c.featThe = true ∧ c.pttwiFixed0 = true then false
       else if (b = 15 ∨ b = 14) ∧ c.tg0ReadbackProgrammed = false then (encodeTG0 (effTG0 c raw)).getLsbD (b - 14)
       else if tcrReservedNow c raw b = true then
         (if bit c.resStoredTcr b = true then bit raw b else tcrReservedAsOne c raw b)
       else bit raw b)

/-- R12, R31 (general knowledge and decision D4, log 20): a value written to a bit that is reserved now changes no
Effective value, whatever `ResBitStored` is. -/
def Obligations.ReservedBitsNeverChangeEffective : Prop :=
  ∀ (c : Cfg) (raw v : Word),
    effective c (raw ^^^ (v &&& (tcrRes0 c raw ||| tcrRes1 c raw))) = effective c raw

/-- R32, R59, R80: on a sound configuration, writing back what was read changes no Effective value. -/
def Obligations.WritingBackTheReadViewKeepsEffective : Prop :=
  ∀ (c : Cfg) (raw : Word), CfgSound c → effective c (tcrReadView c raw) = effective c raw

/-- R80: the Effective value of each of the 26 fields of TCR_EL3, spelled in the bits of the raw value and the features of the
configuration, and `DirtyStateManaged`. Conditions on another field use its Effective value (R13): with Eff.D128 = 1, PIE and
PnCH are 1 under their feature and DS is 0 (R41, R42, R44); without it DisCH0 is 0 (R34). -/
def Obligations.EffectiveValuesFollowR80 : Prop :=
  ∀ (c : Cfg) (raw : Word),
    (effective c raw).d128 = (c.featD128 && bit raw 38) ∧
    (effective c raw).tg0 =
      (if slice raw 14 2 = 0b00 ∧ c.granules.kb4 = true then .kb4
       else if slice raw 14 2 = 0b01 ∧ c.granules.kb64 = true then .kb64
       else if slice raw 14 2 = 0b10 ∧ c.granules.kb16 = true then .kb16
       else fallbackTG0 c (slice raw 14 2)) ∧
    (effective c raw).disCH0 = (c.featD128 && bit raw 38 && bit raw 43) ∧
    (effective c raw).haft = (c.featHaft && bit raw 42) ∧
    (effective c raw).pttwi = (c.featThe && !c.pttwiFixed0 && bit raw 41) ∧
    (effective c raw).aie = (c.featAie && bit raw 37) ∧
    (effective c raw).poe = (c.featS1poe && bit raw 36) ∧
    (effective c raw).pie = (c.featS1pie && ((c.featD128 && bit raw 38) || bit raw 35)) ∧
    (effective c raw).pnCH = (c.featThe && ((c.featD128 && bit raw 38) || bit raw 34)) ∧
    (effective c raw).mtx = ((c.featMteNoAddressTags || c.featMteCanonicalTags) && bit raw 33) ∧
    (effective c raw).ds =
      (c.featLpa2 && !(c.featD128 && bit raw 38) && !decide ((effective c raw).tg0 = .kb64) && bit raw 32) ∧
    (effective c raw).tcma = (c.featMte2 && bit raw 30) ∧
    (effective c raw).tbid = (c.featPauth && bit raw 29) ∧
    (effective c raw).hpd = (c.featHpds && bit raw 24) ∧
    (effective c raw).hwu62 = (c.featHpds2 && c.featHpds && bit raw 24 && bit raw 28) ∧
    (effective c raw).hwu61 = (c.featHpds2 && c.featHpds && bit raw 24 && bit raw 27) ∧
    (effective c raw).hwu60 = (c.featHpds2 && c.featHpds && bit raw 24 && bit raw 26) ∧
    (effective c raw).hwu59 = (c.featHpds2 && c.featHpds && bit raw 24 && bit raw 25) ∧
    (effective c raw).hd = (c.featHafdbs && bit raw 22) ∧
    (effective c raw).ha = (c.featHafdbs && bit raw 21) ∧
    (effective c raw).tbi = bit raw 20 ∧
    (effective c raw).ps = slice raw 16 3 ∧
    (effective c raw).sh0 = slice raw 12 2 ∧
    (effective c raw).orgn0 = slice raw 10 2 ∧
    (effective c raw).irgn0 = slice raw 8 2 ∧
    (effective c raw).t0sz = slice raw 0 6 ∧
    dirtyStateManaged (effective c raw) = (c.featHafdbs && bit raw 22 && bit raw 21)

/-- R59: TG0 programmed to an implemented size is that size; programmed to a reserved value or a size not implemented, it is
the choice the implementation made for that value, which on a sound configuration is an implemented size (R151). What is
read back is the value programmed, or the value of the size chosen. -/
def Obligations.GranuleChosenAndReadBack : Prop :=
  ∀ (c : Cfg) (raw : Word),
    (∀ g, slice raw 14 2 = encodeTG0 g → implementsGranule c g = true → (effective c raw).tg0 = g) ∧
    (∀ g, slice raw 14 2 = encodeTG0 g → implementsGranule c g = false →
      (effective c raw).tg0 = fallbackTG0 c (slice raw 14 2)) ∧
    (slice raw 14 2 = 0b11 → (effective c raw).tg0 = c.tg0Fallback.at11) ∧
    (CfgSound c → implementsGranule c (effective c raw).tg0 = true) ∧
    slice (tcrReadView c raw) 14 2 =
      (if c.tg0ReadbackProgrammed = true then slice raw 14 2 else encodeTG0 (effective c raw).tg0)

/-- R48 to R51: the four HWU fields are bits 28, 27, 26 and 25 under FEAT_HPDS2, their Effective value is 0 while HPD is 0,
and hardware may use the descriptor bit of a field exactly where its Effective value is 1. -/
def Obligations.HwuFieldsNeedHpd : Prop :=
  ∀ (c : Cfg) (raw ttbr0 va : Word) (acc : Access),
    ((effective c raw).hpd = false →
      (effective c raw).hwu62 = false ∧ (effective c raw).hwu61 = false ∧ (effective c raw).hwu60 = false ∧
      (effective c raw).hwu59 = false) ∧
    ((effective c raw).hpd = true →
      (effective c raw).hwu62 = (c.featHpds2 && bit raw 28) ∧ (effective c raw).hwu61 = (c.featHpds2 && bit raw 27) ∧
      (effective c raw).hwu60 = (c.featHpds2 && bit raw 26) ∧ (effective c raw).hwu59 = (c.featHpds2 && bit raw 25)) ∧
    ((walkControls c (effective c raw) ttbr0 va acc).hwu62.isSome = (effective c raw).hwu62) ∧
    ((walkControls c (effective c raw) ttbr0 va acc).hwu61.isSome = (effective c raw).hwu61) ∧
    ((walkControls c (effective c raw) ttbr0 va acc).hwu60.isSome = (effective c raw).hwu60) ∧
    ((walkControls c (effective c raw) ttbr0 va acc).hwu59.isSome = (effective c raw).hwu59)

/-- R36, R162: PTTWI is bit 41 under FEAT_THE, and 0 where it is implemented as a read-only bit with the value 0: for use,
whatever was written, and as read. Writes generated by RCWS at EL3 have the Reduced Coherence property exactly when it is
1. -/
def Obligations.PttwiLiveOrStuckAtZero : Prop :=
  ∀ (c : Cfg) (raw : Word),
    (effective c raw).pttwi = (c.featThe && !c.pttwiFixed0 && bit raw 41) ∧
    rcwsReducedCoherence (effective c raw) = (effective c raw).pttwi ∧
    (c.featThe = true → c.pttwiFixed0 = true → bit (tcrReadView c raw) 41 = false)

/-- R54: HD is bit 22 under FEAT_HAFDBS. Dirty state is hardware managed exactly where HD and HA are both 1. With HD set and
HA clear it is not, and HD still reads back 1. -/
def Obligations.DirtyStateNeedsHdAndHa : Prop :=
  ∀ (c : Cfg) (raw ttbr0 va : Word) (acc : Access),
    (effective c raw).hd = (c.featHafdbs && bit raw 22) ∧
    ((walkControls c (effective c raw) ttbr0 va acc).dirtyState = true ↔
      (effective c raw).hd = true ∧ (effective c raw).ha = true) ∧
    (c.featHafdbs = true → bit (tcrReadView c raw) 22 = bit raw 22)

/-! ## SPSR_EL3: entry and return -/

/-- R230 (RES0 positions by decision D19, log 31): every bit SPSR_EL3 receives on an exception taken to EL3 from AArch64
state. -/
def Obligations.EntryFromAArch64SavesPState : Prop :=
  ∀ (c : Cfg) (p : PState), p.nRW = false →
    bit (savedPState c p) 34 = (c.featGcs && p.exlock) ∧ bit (savedPState c p) 33 = (c.featSebep && p.ppend) ∧
    bit (savedPState c p) 32 = (c.featEbep && p.pm) ∧ bit (savedPState c p) 31 = p.n ∧
    bit (savedPState c p) 30 = p.z ∧ bit (savedPState c p) 29 = p.c ∧ bit (savedPState c p) 28 = p.v ∧
    bit (savedPState c p) 25 = (c.featMte && (c.featMte2 || !c.tcoRes0WithoutMte2) && p.tco) ∧
    bit (savedPState c p) 24 = (c.featDit && p.dit) ∧ bit (savedPState c p) 23 = (c.featUao && p.uao) ∧
    bit (savedPState c p) 22 = (c.featPan && p.pan) ∧ bit (savedPState c p) 21 = p.ss ∧
    bit (savedPState c p) 20 = p.il ∧ bit (savedPState c p) 13 = (c.featNmi && p.allint) ∧
    bit (savedPState c p) 12 = (c.featSsbs && p.ssbs) ∧
    slice (savedPState c p) 10 2 = (if c.featBti = true then p.btype else 0) ∧
    bit (savedPState c p) 9 = p.d ∧ bit (savedPState c p) 8 = p.a ∧ bit (savedPState c p) 7 = p.i ∧
    bit (savedPState c p) 6 = p.f ∧ bit (savedPState c p) 4 = false ∧ slice (savedPState c p) 2 2 = p.el.toBits ∧
    bit (savedPState c p) 1 = false ∧ bit (savedPState c p) 0 = p.sp ∧
    slice (savedPState c p) 35 29 = 0 ∧ slice (savedPState c p) 26 2 = 0 ∧ slice (savedPState c p) 14 6 = 0 ∧
    bit (savedPState c p) 5 = false

/-- R231 (RES0 positions by decision D19, log 31): every bit SPSR_EL3 receives on an exception taken to EL3 from AArch32
state; IT is split between [26:25] and [15:10] (R100). -/
def Obligations.EntryFromAArch32SavesPState : Prop :=
  ∀ (c : Cfg) (p : PState), p.nRW = true →
    bit (savedPState c p) 31 = p.n ∧ bit (savedPState c p) 30 = p.z ∧ bit (savedPState c p) 29 = p.c ∧
    bit (savedPState c p) 28 = p.v ∧ bit (savedPState c p) 27 = p.q ∧
    slice (savedPState c p) 25 2 = p.it.extractLsb' 0 2 ∧ bit (savedPState c p) 24 = (c.featDit && p.dit) ∧
    bit (savedPState c p) 23 = (c.featSsbs && p.ssbs) ∧ bit (savedPState c p) 22 = (c.featPan && p.pan) ∧
    bit (savedPState c p) 21 = p.ss ∧ bit (savedPState c p) 20 = p.il ∧ slice (savedPState c p) 16 4 = p.ge ∧
    slice (savedPState c p) 10 6 = p.it.extractLsb' 2 6 ∧ bit (savedPState c p) 9 = p.e ∧
    bit (savedPState c p) 8 = p.a ∧ bit (savedPState c p) 7 = p.i ∧ bit (savedPState c p) 6 = p.f ∧
    bit (savedPState c p) 5 = p.t ∧ bit (savedPState c p) 4 = true ∧ slice (savedPState c p) 0 4 = p.m ∧
    slice (savedPState c p) 32 32 = 0

/-- R232, R223 (the event list is the model's own, log 13): a step whose next event is an exception return is the return, and
one whose next event is an access of the EL3 regime is that access made with the draw counter's value, in the state with the
event consumed; each is refused by name where it cannot occur. No data is moved by an access event. -/
def Obligations.EventStepsConsumeTheEvent : Prop :=
  ∀ (s : State) (rest : List Event),
    (s.events = .exceptionReturn :: rest → step s = State.exceptionReturn { s with events := rest }) ∧
    (s.events = .exceptionReturn :: rest → ¬ AtEL3 s → step s = .refused (.eventNotPossible .exceptionReturn)) ∧
    (∀ (va : Word) (acc : Access), s.events = .access va acc :: rest → AtEL3 s →
      step s =
        match State.accessEL3 { s with events := rest } s.draws va acc with
        | .next (_, s') => .next { s' with draws := s'.draws + 1 }
        | .fault f => .fault f
        | .refused r => .refused r) ∧
    (∀ (va : Word) (acc : Access), s.events = .access va acc :: rest → ¬ AtEL3 s →
      step s = .refused (.eventNotPossible (.access va acc)))

/-- R232, R234, R235, R237, R238: a legal exception return in EL3 in the AArch64 layout completes and restores PSTATE. EL, SP
and nRW come from M, the flags and masks are the saved bits; a field without its feature is as it was; SS and PPEND are the
saved bit or 0 (decision D20, log 28); SPSR_EL3 becomes a free value (R92). The pc is ELR_EL3 under R239's assumption, else a
free value (log 26), with its top byte 0 where the return is to EL3, TBI applies to instruction addresses and the lost list
holds the return (`tbiClearsReturnPc`, log 25, log 46). Every other field is as it was. PSTATE.EXLOCK holds no return off (log 56). -/
def Obligations.ReturnToAArch64Restores : Prop :=
  ∀ (s : State), AtEL3 s → bit s.spsrEL3 4 = false → illegalReturn s.cfg s.spsrEL3 = false →
    ∃ s', s.exceptionReturn = .next s' ∧
      s'.pstate.el.toBits = slice s.spsrEL3 2 2 ∧ s'.pstate.sp = bit s.spsrEL3 0 ∧ s'.pstate.nRW = false ∧
      s'.pstate.n = bit s.spsrEL3 31 ∧ s'.pstate.z = bit s.spsrEL3 30 ∧ s'.pstate.c = bit s.spsrEL3 29 ∧
      s'.pstate.v = bit s.spsrEL3 28 ∧ s'.pstate.il = bit s.spsrEL3 20 ∧ s'.pstate.d = bit s.spsrEL3 9 ∧
      s'.pstate.a = bit s.spsrEL3 8 ∧ s'.pstate.i = bit s.spsrEL3 7 ∧ s'.pstate.f = bit s.spsrEL3 6 ∧
      s'.pstate.exlock = (if s.cfg.featGcs = true then bit s.spsrEL3 34 else s.pstate.exlock) ∧
      s'.pstate.pm = (if s.cfg.featEbep = true then bit s.spsrEL3 32 else s.pstate.pm) ∧
      s'.pstate.tco = (if tcoLive s.cfg = true then bit s.spsrEL3 25 else s.pstate.tco) ∧
      s'.pstate.dit = (if s.cfg.featDit = true then bit s.spsrEL3 24 else s.pstate.dit) ∧
      s'.pstate.uao = (if s.cfg.featUao = true then bit s.spsrEL3 23 else s.pstate.uao) ∧
      s'.pstate.pan = (if s.cfg.featPan = true then bit s.spsrEL3 22 else s.pstate.pan) ∧
      s'.pstate.allint = (if s.cfg.featNmi = true then bit s.spsrEL3 13 else s.pstate.allint) ∧
      s'.pstate.ssbs = (if s.cfg.featSsbs = true then bit s.spsrEL3 12 else s.pstate.ssbs) ∧
      s'.pstate.btype = (if s.cfg.featBti = true then slice s.spsrEL3 10 2 else s.pstate.btype) ∧
      (s'.pstate.ss = bit s.spsrEL3 21 ∨ s'.pstate.ss = false) ∧
      (s.cfg.featSebep = true → s'.pstate.ppend = bit s.spsrEL3 33 ∨ s'.pstate.ppend = false) ∧
      (s.cfg.featSebep = false → s'.pstate.ppend = s.pstate.ppend) ∧
      s'.pstate = { s.pstate with
        el := s'.pstate.el, sp := s'.pstate.sp, nRW := s'.pstate.nRW, n := s'.pstate.n, z := s'.pstate.z,
        c := s'.pstate.c, v := s'.pstate.v, il := s'.pstate.il, d := s'.pstate.d, a := s'.pstate.a, i := s'.pstate.i,
        f := s'.pstate.f, exlock := s'.pstate.exlock, pm := s'.pstate.pm, tco := s'.pstate.tco, dit := s'.pstate.dit,
        uao := s'.pstate.uao, pan := s'.pstate.pan, allint := s'.pstate.allint, ssbs := s'.pstate.ssbs,
        btype := s'.pstate.btype, ss := s'.pstate.ss, ppend := s'.pstate.ppend } ∧
      s'.spsrEL3 = Config.unknown64 s.draws ∧
      PcHolds s'.pc (if s.cfg.assumesEntryR239 = true then s.elrEL3 else Config.unknown64 (s.draws + 1))
        (s.cfg.tbiClearsReturnPc && decide (slice s.spsrEL3 2 2 = 0b11) &&
          tbiApplies s.cfg (s.seenEffective s.draws) .instruction) ∧
      s' = { s with pstate := s'.pstate, spsrEL3 := s'.spsrEL3, pc := s'.pc, draws := s'.draws }

/-- R233, R107: a legal exception return in EL3 in the AArch32 layout completes and restores what R233 lists; PSTATE.EL
becomes the level of the mode, by a map that is a free value (log 27); SS is the saved bit or 0 (decision D20, log 28);
PSTATE.E is the saved bit, 0 where the level returned to supports no big-endian operation (neither byte order among these,
log 36) and 1 where it supports no other; SPSR_EL3 becomes a free value (R92, R235); the pc is ELR_EL3 under R239's
assumption, else a free value (R237, log 26). PSTATE.EXLOCK holds no return off (log 56). -/
def Obligations.ReturnToAArch32Restores : Prop :=
  ∀ (s : State), AtEL3 s → bit s.spsrEL3 4 = true → illegalReturn s.cfg s.spsrEL3 = false →
    ∃ s', s.exceptionReturn = .next s' ∧
      s'.pstate.nRW = true ∧ s'.pstate.m = slice s.spsrEL3 0 4 ∧ s'.pstate.n = bit s.spsrEL3 31 ∧
      s'.pstate.z = bit s.spsrEL3 30 ∧ s'.pstate.c = bit s.spsrEL3 29 ∧ s'.pstate.v = bit s.spsrEL3 28 ∧
      s'.pstate.q = bit s.spsrEL3 27 ∧ s'.pstate.it = slice s.spsrEL3 10 6 ++ slice s.spsrEL3 25 2 ∧
      s'.pstate.ge = slice s.spsrEL3 16 4 ∧ s'.pstate.a = bit s.spsrEL3 8 ∧ s'.pstate.i = bit s.spsrEL3 7 ∧
      s'.pstate.f = bit s.spsrEL3 6 ∧ s'.pstate.t = bit s.spsrEL3 5 ∧ s'.pstate.il = bit s.spsrEL3 20 ∧
      (s'.pstate.ss = bit s.spsrEL3 21 ∨ s'.pstate.ss = false) ∧
      s'.pstate.dit = (if s.cfg.featDit = true then bit s.spsrEL3 24 else s.pstate.dit) ∧
      s'.pstate.ssbs = (if s.cfg.featSsbs = true then bit s.spsrEL3 23 else s.pstate.ssbs) ∧
      s'.pstate.pan = (if s.cfg.featPan = true then bit s.spsrEL3 22 else s.pstate.pan) ∧
      s'.pstate.el = Config.aarch32ModeEL (slice s.spsrEL3 0 4) ∧
      s'.spsrEL3 = Config.unknown64 s.draws ∧
      s'.pc = (if s.cfg.assumesEntryR239 = true then s.elrEL3 else Config.unknown64 (s.draws + 1)) ∧
      (perEL s.cfg.bigEndian s'.pstate.el = false → s'.pstate.e = false) ∧
      (perEL s.cfg.bigEndian s'.pstate.el = true → perEL s.cfg.littleEndian s'.pstate.el = false → s'.pstate.e = true) ∧
      (perEL s.cfg.bigEndian s'.pstate.el = true → perEL s.cfg.littleEndian s'.pstate.el = true →
        s'.pstate.e = bit s.spsrEL3 9) ∧
      s' = { s with pstate := s'.pstate, spsrEL3 := s'.spsrEL3, pc := s'.pc, draws := s'.draws }

/-- R236: the two causes of an illegal return event that the sources name, in each layout: a reserved M[3:0], or an
Exception level that is not implemented; and an AArch32 value where AArch32 is not supported. Each stops with the fault
`IllegalReturn` that names the SPSR_EL3 value (decision D21, log 29), whatever PSTATE.EXLOCK holds (log 56). -/
def Obligations.IllegalReturnIsAFault : Prop :=
  ∀ (s : State), AtEL3 s →
    ((bit s.spsrEL3 4 = false ∧
        (slice s.spsrEL3 0 4 ∉ [0b0000, 0b0100, 0b0101, 0b1000, 0b1001, 0b1100, 0b1101] ∨
         implementedEL s.cfg (EL.ofBits (slice s.spsrEL3 2 2)) = false)) ∨
     (bit s.spsrEL3 4 = true ∧
        (s.cfg.aarch32Supported = false ∨
         slice s.spsrEL3 0 4 ∉ [0b0000, 0b0001, 0b0010, 0b0011, 0b0110, 0b0111, 0b1010, 0b1011, 0b1111] ∨
         implementedEL s.cfg (Config.aarch32ModeEL (slice s.spsrEL3 0 4)) = false))) →
    s.exceptionReturn = .fault (.illegalReturn s.spsrEL3)

/-- R230 with R232: a return that finds in SPSR_EL3 what an entry from AArch64 state saved, and makes both conditional
copies, gives back the saved PSTATE, field by field, wherever the fields without their feature agree. (With a conditional
copy not made, SS or PPEND is 0 instead, log 28.) -/
def Obligations.ReturnUndoesEntryAArch64 : Prop :=
  ∀ (c : Cfg) (p q : PState), p.nRW = false → (p.el = .el0 → p.sp = false) → implementedEL c p.el = true →
    illegalReturn c (savedPState c p) = false ∧
    restoredPState c (savedPState c p) true true
        { q with
          exlock := if c.featGcs then q.exlock else p.exlock, ppend := if c.featSebep then q.ppend else p.ppend,
          pm := if c.featEbep then q.pm else p.pm, tco := if tcoLive c then q.tco else p.tco,
          dit := if c.featDit then q.dit else p.dit, uao := if c.featUao then q.uao else p.uao,
          pan := if c.featPan then q.pan else p.pan, allint := if c.featNmi then q.allint else p.allint,
          ssbs := if c.featSsbs then q.ssbs else p.ssbs, btype := if c.featBti then q.btype else p.btype }
      = { p with q := q.q, ge := q.ge, it := q.it, e := q.e, t := q.t, m := q.m }

/-- R12, R90, R93, R114 (reserved bits: decision D4, log 20): the read view of SPSR_EL3, bit by bit in both layouts: a
reserved bit as stored or as its reserved value, any other bit as written. The layout is bit 4's where AArch32 is supported
(log 20), and E is reserved where the implementation supports one byte order alone (R107, log 36). So reading right after an
entry from AArch64 state gives the saved value itself, whatever `ResBitStored` is (R230, log 31). -/
def Obligations.SpsrReadViewBitByBit : Prop :=
  (∀ (c : Cfg) (raw : Word) (b : Nat), b < 64 →
    bit (spsrReadView c raw) b =
      (if spsrReservedNow c raw b = true then
         (if bit c.resStoredSpsr b = true then bit raw b else spsrReservedAsOne c raw b)
       else bit raw b)) ∧
  (∀ (c : Cfg) (p : PState), p.nRW = false → spsrReadView c (savedPState c p) = savedPState c p)

/-- R237, R273, with R239 as the named assumption (PRESUMED, log 9): a second exception taken to EL3 overwrites the saved
state of the first; what SPSR_EL3 then holds is the entry state of the first handler: EL3h, with D, A, I and F masked, IL
and SS clear. -/
def Obligations.NestedEntryOverwritesSavedState : Prop :=
  ∀ (s : State) (k₁ k₂ : ExceptionKind) (y₁ y₂ : Word),
    ((s.takeExceptionToEL3 k₁ y₁).takeExceptionToEL3 k₂ y₂).spsrEL3 =
      savedPState s.cfg (s.takeExceptionToEL3 k₁ y₁).pstate ∧
    slice ((s.takeExceptionToEL3 k₁ y₁).takeExceptionToEL3 k₂ y₂).spsrEL3 0 5 = 0b01101 ∧
    slice ((s.takeExceptionToEL3 k₁ y₁).takeExceptionToEL3 k₂ y₂).spsrEL3 6 4 = 0b1111 ∧
    slice ((s.takeExceptionToEL3 k₁ y₁).takeExceptionToEL3 k₂ y₂).spsrEL3 20 2 = 0b00

/-- R230, R231, and R239 as the named assumption (PRESUMED, log 9; events log 13): an exception taken to EL3 from outside
the four instructions. SPSR_EL3 saves PSTATE, ELR_EL3 the pc and ESR_EL3 the syndrome; PSTATE is as R239 says; the pc is
VBAR_EL3 plus the offset of the source state and the kind, with its top byte 0 where TBI applies to instruction addresses
and the lost list of R238 holds the entry (`tbiClearsEntryPc`, log 25, log 46), and whole where not; TCR_EL3, the general
registers and memory are as they were. The model's choices: no mask of PSTATE holds the event off (log 44), the offset
from AArch32 state is 0x600 at EL3 too (log 50), and ELR_EL3 is the current pc for every kind (log 51). -/
def Obligations.ExceptionEventEntersHandler : Prop :=
  ∀ (s : State) (k : ExceptionKind) (y : Word) (rest : List Event), s.events = .exceptionToEL3 k y :: rest →
    s.cfg.haveEL3 = true → (s.pstate.nRW = true → s.cfg.aarch32Supported = true) → s.cfg.assumesEntryR239 = true →
    ∃ s', step s = .next s' ∧ s'.spsrEL3 = savedPState s.cfg s.pstate ∧ s'.elrEL3 = s.pc ∧ s'.esrEL3 = y ∧
      s'.pstate.el = .el3 ∧ s'.pstate.sp = true ∧ s'.pstate.nRW = false ∧
      (s'.pstate.d && s'.pstate.a && s'.pstate.i && s'.pstate.f) = true ∧ s'.pstate.il = false ∧ s'.pstate.ss = false ∧
      PcHolds s'.pc
        (s.vbarEL3 +
          (if s.pstate.nRW = true then 0x600 else if s.pstate.el ≠ .el3 then 0x400
           else if s.pstate.sp = true then 0x200 else 0x000) +
          (match k with | .synchronous => 0x000 | .irq => 0x080 | .fiq => 0x100 | .serror => 0x180))
        (s.cfg.tbiClearsEntryPc && tbiApplies s.cfg (s.seenEffective (s.draws + 1)) .instruction) ∧
      s'.tcrEL3 = s.tcrEL3 ∧ s'.history = s.history ∧ s'.x = s.x ∧ s'.events = rest ∧
      (∀ a, Memory.read s'.mem a = Memory.read s.mem a)

/-! ## Translation -/

/-- R170, decision D12 (log 22): whatever the TLB holds, each field a translation sees but POE is that field of some value
TCR_EL3 has held since the last reset, and POE is the current value's. -/
def Obligations.SeenFieldsComeFromHistory : Prop :=
  ∀ (s : State) (n : Nat), s.history ≠ [] →
    (∃ h ∈ s.history, (s.seenEffective n).t0sz = (effective s.cfg h).t0sz) ∧
    (∃ h ∈ s.history, (s.seenEffective n).tg0 = (effective s.cfg h).tg0) ∧
    (∃ h ∈ s.history, (s.seenEffective n).ps = (effective s.cfg h).ps) ∧
    (∃ h ∈ s.history, (s.seenEffective n).sh0 = (effective s.cfg h).sh0) ∧
    (∃ h ∈ s.history, (s.seenEffective n).orgn0 = (effective s.cfg h).orgn0) ∧
    (∃ h ∈ s.history, (s.seenEffective n).irgn0 = (effective s.cfg h).irgn0) ∧
    (∃ h ∈ s.history, (s.seenEffective n).ds = (effective s.cfg h).ds) ∧
    (∃ h ∈ s.history, (s.seenEffective n).d128 = (effective s.cfg h).d128) ∧
    (∃ h ∈ s.history, (s.seenEffective n).tbi = (effective s.cfg h).tbi) ∧
    (∃ h ∈ s.history, (s.seenEffective n).tbid = (effective s.cfg h).tbid) ∧
    (∃ h ∈ s.history, (s.seenEffective n).hpd = (effective s.cfg h).hpd) ∧
    (∃ h ∈ s.history, (s.seenEffective n).ha = (effective s.cfg h).ha) ∧
    (∃ h ∈ s.history, (s.seenEffective n).hd = (effective s.cfg h).hd) ∧
    (∃ h ∈ s.history, (s.seenEffective n).haft = (effective s.cfg h).haft) ∧
    (∃ h ∈ s.history, (s.seenEffective n).pttwi = (effective s.cfg h).pttwi) ∧
    (∃ h ∈ s.history, (s.seenEffective n).aie = (effective s.cfg h).aie) ∧
    (∃ h ∈ s.history, (s.seenEffective n).pie = (effective s.cfg h).pie) ∧
    (∃ h ∈ s.history, (s.seenEffective n).pnCH = (effective s.cfg h).pnCH) ∧
    (∃ h ∈ s.history, (s.seenEffective n).mtx = (effective s.cfg h).mtx) ∧
    (∃ h ∈ s.history, (s.seenEffective n).tcma = (effective s.cfg h).tcma) ∧
    (∃ h ∈ s.history, (s.seenEffective n).disCH0 = (effective s.cfg h).disCH0) ∧
    (∃ h ∈ s.history, (s.seenEffective n).hwu62 = (effective s.cfg h).hwu62) ∧
    (∃ h ∈ s.history, (s.seenEffective n).hwu61 = (effective s.cfg h).hwu61) ∧
    (∃ h ∈ s.history, (s.seenEffective n).hwu60 = (effective s.cfg h).hwu60) ∧
    (∃ h ∈ s.history, (s.seenEffective n).hwu59 = (effective s.cfg h).hwu59) ∧
    (s.seenEffective n).poe = (effective s.cfg s.tcrEL3).poe

/-- R40: POE is bit 36 under FEAT_S1POE, computed from the current value of TCR_EL3 whatever the TLB holds, and the walk
takes the permission overlay for EL3 accesses from it. -/
def Obligations.PoeIsNeverCachedInATlb : Prop :=
  ∀ (s : State) (n : Nat) (va : Word) (acc : Access),
    (s.seenEffective n).poe = (s.cfg.featS1poe && bit s.tcrEL3 36) ∧
    (walkControls s.cfg (s.seenEffective n) s.ttbr0EL3 va acc).permissionOverlay = (s.seenEffective n).poe

/-- R223, R44, R152: any memory access of the enabled EL3 regime that sees T0SZ below its minimum (16 with DS = 0, 12 with
DS = 1) raises the stage 1 level 0 translation table fault. Where TCR_EL3 has held one value only and it is such a value,
so does the very next instruction fetch; the MSR that writes it completes (`MsrTcrEL3StoresAll64Bits`). That the translation
for a cache maintenance or address translation instruction faults too is the model's choice (log 53). -/
def Obligations.SmallT0szFaultsEveryAccess : Prop :=
  (∀ (s : State) (n : Nat) (va : Word) (acc : Access), s.regimeEnabled = true →
    (s.seenEffective n).t0sz.toNat < (if (s.seenEffective n).ds = true then 12 else 16) →
    s.accessEL3 n va acc = .fault (.translationFault 1 0 va acc)) ∧
  (∀ (s : State), OneTcrValue s → AtEL3 s → NoEvent s → pcAligned s.pc = true → s.regimeEnabled = true →
    (slice s.tcrEL3 0 6).toNat < (if (effective s.cfg s.tcrEL3).ds = true then 12 else 16) →
    step s = .fault (.translationFault 1 0 s.pc .instruction))

/-- R163, R60, R58, decisions D14 and D15 (log 38): a translation at or above the T0SZ minimum is refused while SH0 is
reserved, while PS has no meaning (0b110 where it is not implemented, 0b111 without FEAT_D128), and while T0SZ is above its
maximum. -/
def Obligations.TranslationRefusals : Prop :=
  ∀ (c : Cfg) (e : Effective) (ttbr0 va : Word) (mem : List Host.Cell) (acc : Access) (n : Nat),
    t0szMin e ≤ e.t0sz.toNat →
    (e.sh0 = 0b01 → translateEL3 c e ttbr0 mem va acc n = .refused .reservedSH0) ∧
    (e.sh0 ≠ 0b01 → (e.ps = 0b110 ∧ c.ps52Implemented = false) ∨ (e.ps = 0b111 ∧ c.featD128 = false) →
      translateEL3 c e ttbr0 mem va acc n = .refused (.psWithoutMeaning e.ps)) ∧
    (e.sh0 ≠ 0b01 → (e.ps = 0b110 → c.ps52Implemented = true) → (e.ps = 0b111 → c.featD128 = true) →
      c.t0szMax < e.t0sz.toNat →
      translateEL3 c e ttbr0 mem va acc n = .refused (.t0szAboveMaximum e.t0sz.toNat))

/-- R265, R163, R154, R159, R158: when TCR_EL3 has held one value only, and that value is what the boot requirements ask for,
an access of the enabled EL3 regime neither faults below the T0SZ minimum nor is refused for SH0, PS or T0SZ: it ends as the
opaque walk ends, which is asked with the Effective values of TCR_EL3 and nothing else of it, and with the address without its
top byte where TBI applies (R157), and then as the tag check that MTX asks for (log 43; with MTX = 0 none is made, log 54), which
comes last and sees memory after the walker's writes (log 52, log 45). The output address has bits [51:48] zero with DS = 0 and
is the walk's otherwise (log 23); the walker's writes land under HA or HAFT alone, all at once (log 55). -/
def Obligations.WellProgrammedTcrTranslates : Prop :=
  ∀ (s : State) (n : Nat) (va : Word) (acc : Access), s.regimeEnabled = true → OneTcrValue s →
    tcrWellProgrammed s.cfg s.tcrEL3 →
    match Config.translateS1EL3
        { cfg := s.cfg, eff := effective s.cfg s.tcrEL3,
          controls := walkControls s.cfg (effective s.cfg s.tcrEL3) s.ttbr0EL3
            (matchedAddress s.cfg (effective s.cfg s.tcrEL3) acc va) acc,
          ttbr0 := s.ttbr0EL3, mem := s.mem, va := matchedAddress s.cfg (effective s.cfg s.tcrEL3) acc va, acc := acc } n with
    | .mapped pa u => ∃ pa' mem',
        ((effective s.cfg s.tcrEL3).ds = true → pa' = pa) ∧
        ((effective s.cfg s.tcrEL3).ds = false → slice pa' 48 4 = 0 ∧ slice pa' 0 48 = slice pa 0 48 ∧
          slice pa' 52 12 = slice pa 52 12) ∧
        mem' = (if (effective s.cfg s.tcrEL3).ha = true ∨ (effective s.cfg s.tcrEL3).haft = true
          then Memory.writeAll s.mem u else s.mem) ∧
        s.accessEL3 n va acc =
          (if tagCheckPasses
              { cfg := s.cfg, pstate := s.pstate, tags := tagControls s.cfg (effective s.cfg s.tcrEL3) acc va, mem := mem',
                va := va, address := pa' } n = true
           then .next (pa', { s with mem := mem' }) else .refused (.tagCheckNotInSource va))
    | .notInSource => s.accessEL3 n va acc = .refused (.walkNotInSource va)

/-- R159 (log 23): an access that answers an address changes nothing but memory, whose canonical form it keeps, and memory
only by the writes of the walk it made: none with the regime disabled, and none that sees HA and HAFT both 0 (and so no
dirty state management). That all of them land at once is the model's choice (log 55). -/
def Obligations.WalkerWritesOnlyUnderItsControls : Prop :=
  ∀ (s s' : State) (n : Nat) (va pa : Word) (acc : Access), s.accessEL3 n va acc = .next (pa, s') →
    s' = { s with mem := s'.mem } ∧ (Memory.wf s.mem = true → Memory.wf s'.mem = true) ∧
    (s.regimeEnabled = false → s'.mem = s.mem) ∧
    (s.regimeEnabled = true →
      ∃ u, translateEL3 s.cfg (s.seenEffective n) s.ttbr0EL3 s.mem va acc n = .mapped pa u ∧
        s'.mem = Memory.writeAll s.mem u ∧
        ((s.seenEffective n).ha = false → (s.seenEffective n).haft = false → u = []))

/-- R157: TBI applies to a data access (cache maintenance and address translation instructions among them) exactly when
Eff.TBI is 1, to an instruction access unless FEAT_PAuth and TBID; where it applies the top byte takes no part in the
address match, and where it does not the whole address does. The other 56 bits always do. So two addresses that differ in an
ignored top byte alone translate alike, to the same output address with the same table writes. -/
def Obligations.TopByteIgnoredWhereTbiApplies : Prop :=
  ∀ (c : Cfg) (e : Effective) (acc : Access) (va : Word),
    (tbiApplies c e acc = true ↔
      e.tbi = true ∧ (acc = .data ∨ acc = .maintenance ∨
        (acc = .instruction ∧ ¬ (c.featPauth = true ∧ e.tbid = true)))) ∧
    (tbiApplies c e acc = true → slice (matchedAddress c e acc va) 56 8 = 0) ∧
    (tbiApplies c e acc = false → matchedAddress c e acc va = va) ∧
    slice (matchedAddress c e acc va) 0 56 = slice va 0 56 ∧
    (∀ (va' ttbr0 pa : Word) (mem : List Host.Cell) (n : Nat) (u : List (Word × Byte)),
      slice va 0 56 = slice va' 0 56 → (tbiApplies c e acc = true ∨ slice va 56 8 = slice va' 56 8) →
      (translateEL3 c e ttbr0 mem va acc n = .mapped pa u ↔ translateEL3 c e ttbr0 mem va' acc n = .mapped pa u))

/-- R158, R43, R46, R171, C10: MTX acts on data accesses, regime enabled or not (log 43): bits [59:56] hold the tag and are
zero in the range check, which keeps the rest of the matched address. On an instruction access and on one of a maintenance
instruction (log 43), and with MTX = 0, it does nothing, and no access is tag checked then (log 54). TCMA makes exactly the accesses whose address [59:56] is 0b0000
Unchecked. With the regime disabled an access that is not tag checked answers the range-checked address (no translation: log
24); one that is goes on as the opaque check says. There MTX, TCMA, TBI and TBID are as picked from `History` (log 46), and that
TCMA acts there at all is the model's choice (log 49). -/
def Obligations.TagControlsOfAnAccess : Prop :=
  (∀ (c : Cfg) (e : Effective) (acc : Access) (va : Word),
    (e.mtx = true → (tagControls c e .data va).logicalTag = some (slice va 56 4) ∧
      (tagControls c e .data va).canonicalTagCheck = true ∧
      (tagControls c e .data va).pacExcludesTag = c.featPauth ∧
      slice (rangeCheckedAddress c e .data va) 56 4 = 0 ∧
      slice (rangeCheckedAddress c e .data va) 0 56 = slice (matchedAddress c e .data va) 0 56 ∧
      slice (rangeCheckedAddress c e .data va) 60 4 = slice (matchedAddress c e .data va) 60 4) ∧
    (e.mtx = false ∨ acc ≠ .data → (tagControls c e acc va).logicalTag = none ∧
      (tagControls c e acc va).canonicalTagCheck = false ∧ (tagControls c e acc va).pacExcludesTag = false ∧
      rangeCheckedAddress c e acc va = matchedAddress c e acc va) ∧
    ((tagControls c e acc va).unchecked = true ↔ e.tcma = true ∧ slice va 56 4 = 0b0000)) ∧
  (∀ (s : State) (n : Nat) (va : Word) (acc : Access), s.regimeEnabled = false →
    ((s.seenEffective n).mtx = false ∨ acc ≠ .data ∨ ((s.seenEffective n).tcma = true ∧ slice va 56 4 = 0b0000) →
      s.accessEL3 n va acc = .next (rangeCheckedAddress s.cfg (s.seenEffective n) acc va, s)) ∧
    ((s.seenEffective n).mtx = true → ((s.seenEffective n).tcma = false ∨ slice va 56 4 ≠ 0b0000) →
      s.accessEL3 n va .data =
        (if Config.canonicalTagCheck
            { cfg := s.cfg, pstate := s.pstate, tags := tagControls s.cfg (s.seenEffective n) .data va, mem := s.mem,
              va := va, address := rangeCheckedAddress s.cfg (s.seenEffective n) .data va } n = true
         then .next (rangeCheckedAddress s.cfg (s.seenEffective n) .data va, s)
         else .refused (.tagCheckNotInSource va))))

/-- R172: with DS = 1 the argument of the TLBI Range instructions affecting VA has BaseADDR[52:16] in bits [36:0];
BaseADDR[15:12] is 0 for the 4KB granule and BaseADDR[15:14] is 0 for the 16KB granule. -/
def Obligations.TlbiRangeArgumentUnderDS : Prop :=
  ∀ (e : Effective) (arg : Word), e.ds = true →
    ∃ base, tlbiRangeBase e arg = some base ∧ base.extractLsb' 16 37 = slice arg 0 37 ∧
      (e.tg0 = .kb4 → base.extractLsb' 12 4 = 0b0000) ∧ (e.tg0 = .kb16 → base.extractLsb' 14 2 = 0b00)

/-- R64, R152, C2: the initial lookup level at or above the T0SZ minimum, where the two Notes of T0SZ give one and nowhere
else (below the minimum there is no walk, so the first Note applies only with DS = 1), and the region size 2^(64 - T0SZ). -/
def Obligations.InitialLevelAndRegionSize : Prop :=
  ∀ (c : Cfg) (e : Effective),
    (t0szMin e ≤ e.t0sz.toNat → c.featLpa2 = true → e.tg0 = .kb4 → e.t0sz.toNat < 16 →
      initialLevel c e = some (-1) ∧ e.ds = true) ∧
    (t0szMin e ≤ e.t0sz.toNat → c.featLpa2 = true → e.tg0 = .kb16 → e.t0sz.toNat < 17 → initialLevel c e = some 0) ∧
    (∀ l, initialLevel c e = some l → c.featLpa2 = true ∧ t0szMin e ≤ e.t0sz.toNat ∧
      ((l = -1 ∧ e.tg0 = .kb4 ∧ e.t0sz.toNat < 16) ∨ (l = 0 ∧ e.tg0 = .kb16 ∧ e.t0sz.toNat < 17))) ∧
    t0szMin e = (if e.ds = true then 12 else 16) ∧
    regionSize e * 2 ^ e.t0sz.toNat = 2 ^ 64

/-- R160, R153, R52, R44, R42: what HPD, DS and PnCH make of the descriptor bits the source names. Under HPD = 1 APTable,
PXNTable and UXNTable are as if zero and NSTable keeps its effect; under HPD = 0 all act as stored, APTable[0] in bit [61] and
PXNTable in bit [59] (the places of the others are free, log 48). -/
def Obligations.DescriptorBitsUnderHpdDsPnch : Prop :=
  ∀ (e : Effective) (desc : Word),
    (e.hpd = true → (tableControls e desc).apTable = 0b00 ∧ (tableControls e desc).pxnTable = false ∧
      (tableControls e desc).uxnTable = false) ∧
    (e.hpd = false → tableControls e desc = storedTableControls desc ∧
      (tableControls e desc).apTable.getLsbD 0 = bit desc 61 ∧ (tableControls e desc).pxnTable = bit desc 59) ∧
    (tableControls e desc).nsTable = (storedTableControls desc).nsTable ∧
    (e.ds = true → (descriptorOutput51to48 e desc).extractLsb' 2 2 = slice desc 8 2 ∧
      (descriptorOutput51to48 e desc).extractLsb' 0 2 = slice desc 48 2 ∧ leafShareability e desc = e.sh0) ∧
    (e.ds = false → descriptorOutput51to48 e desc = 0 ∧ leafShareability e desc = slice desc 8 2) ∧
    (e.pnCH = true → descriptorProtected e desc = some (bit desc 52)) ∧
    (e.pnCH = false → descriptorProtected e desc = none)

/-- R150, R151, R154 to R156, R159 to R161 with the value tables R58, R60 to R62: what a walk is told. The attributes and sizes
are the tables' values; the selectors are the Effective values; the region is the bottom 2^(64 - T0SZ) bytes, judged on the
range-checked address (PRESUMED, log 23); with DS = 1 TTBR0_EL3[5:2] are output address [51:48] of the table base and tables
of fewer than 8 entries are aligned to 64 bytes; the table base's [55:52] are zero where PARange is 0b0111 and PS is not 0b111
(no other value is treated as 0b111, log 23). -/
def Obligations.WalkControlsFollowTcr : Prop :=
  ∀ (c : Cfg) (raw ttbr0 va : Word) (acc : Access),
    ((walkControls c (effective c raw) ttbr0 va acc).outer =
      match slice raw 10 2 with
      | 0b00 => .nonCacheable
      | 0b01 => .writeBackReadWriteAllocate
      | 0b10 => .writeThroughReadAllocate
      | _ => .writeBackReadAllocate) ∧
    ((walkControls c (effective c raw) ttbr0 va acc).inner =
      match slice raw 8 2 with
      | 0b00 => .nonCacheable
      | 0b01 => .writeBackReadWriteAllocate
      | 0b10 => .writeThroughReadAllocate
      | _ => .writeBackReadAllocate) ∧
    ((walkControls c (effective c raw) ttbr0 va acc).shareability =
      match slice raw 12 2 with
      | 0b00 => some .nonShareable
      | 0b10 => some .outerShareable
      | 0b11 => some .innerShareable
      | _ => none) ∧
    ((walkControls c (effective c raw) ttbr0 va acc).outputSizeBits =
      match slice raw 16 3 with
      | 0b000 => 32
      | 0b001 => 36
      | 0b010 => 40
      | 0b011 => 42
      | 0b100 => 44
      | 0b101 => 48
      | 0b110 => 52
      | _ => 56) ∧
    (walkControls c (effective c raw) ttbr0 va acc).vmsa128 = (effective c raw).d128 ∧
    (walkControls c (effective c raw) ttbr0 va acc).granule = (effective c raw).tg0 ∧
    (walkControls c (effective c raw) ttbr0 va acc).regionSize = 2 ^ (64 - (slice raw 0 6).toNat) ∧
    ((walkControls c (effective c raw) ttbr0 va acc).inRegion = true ↔
      (rangeCheckedAddress c (effective c raw) acc va).toNat < 2 ^ (64 - (slice raw 0 6).toNat)) ∧
    (walkControls c (effective c raw) ttbr0 va acc).outputAddress52 = (effective c raw).ds ∧
    (walkControls c (effective c raw) ttbr0 va acc).tableBase51to48 =
      (if (effective c raw).ds = true then some (slice ttbr0 2 4) else none) ∧
    ((walkControls c (effective c raw) ttbr0 va acc).tableBase55to52Zero = true ↔
      c.paRange = 0b0111 ∧ slice raw 16 3 ≠ 0b111) ∧
    (∀ entries, smallTableAlignment (effective c raw) entries =
      if (effective c raw).ds = true ∧ entries < 8 then some 64 else none) ∧
    (walkControls c (effective c raw) ttbr0 va acc).accessFlagUpdate = (effective c raw).ha ∧
    (walkControls c (effective c raw) ttbr0 va acc).dirtyState = ((effective c raw).hd && (effective c raw).ha) ∧
    (walkControls c (effective c raw) ttbr0 va acc).tableAccessFlag = (effective c raw).haft ∧
    (walkControls c (effective c raw) ttbr0 va acc).hierarchicalDisabled = (effective c raw).hpd ∧
    (walkControls c (effective c raw) ttbr0 va acc).hierarchicalKept.nsTable = true ∧
    (walkControls c (effective c raw) ttbr0 va acc).indirectPermission = (effective c raw).pie ∧
    (walkControls c (effective c raw) ttbr0 va acc).permissionOverlay = (effective c raw).poe ∧
    (walkControls c (effective c raw) ttbr0 va acc).attributeIndexing = (effective c raw).aie ∧
    (walkControls c (effective c raw) ttbr0 va acc).protectedBit52 = (effective c raw).pnCH ∧
    (walkControls c (effective c raw) ttbr0 va acc).startTableContiguousZero = (effective c raw).disCH0 ∧
    (walkControls c (effective c raw) ttbr0 va acc).tags = tagControls c (effective c raw) acc va

/-! ## The machine -/

/-- A step runs the decoded instruction: with no event to come, in AArch64 state, the regime disabled, at an aligned pc
whose four bytes (at the address the fetch reads, without its top byte where TBI applies at EL3) are those of a
well-formed instruction, a step is exec of that instruction. (Log 16, log 24.) That it runs whatever the other fields of PSTATE
hold, IL and SS among them, is the model's choice (log 47). -/
def Obligations.StepRunsTheFetchedInstruction : Prop :=
  ∀ (s : State) (i : Instr), NoEvent s → s.pstate.nRW = false → pcAligned s.pc = true → s.regimeEnabled = false →
    WellFormed i → Memory.readBytes s.mem s.plainFetchAddress 4 = .ok (encodeBytes i) → step s = exec i s

/-- The same with the regime enabled: a step is exec of the instruction the fetched bytes decode to, in the state the
fetch's translation leaves; and that state differs from the one before in memory alone, by what the walker wrote. (Log 16, log
23, log 24.) That it runs whatever PSTATE.IL and SS hold is the model's choice (log 47). -/
def Obligations.StepRunsWhatItsFetchReads : Prop :=
  ∀ (s s₁ : State) (bs rest : List Byte) (i : Instr), NoEvent s → s.fetch = .next (bs, s₁) →
    decode bs = .ok (i, rest) → step s = exec i s₁ ∧ s₁ = { s with mem := s₁.mem }

/-- Every step keeps the invariant: the memory's canonical form, the newest entry of `History` equal to TCR_EL3 (R170), an
implemented Exception level (R240, R236), AArch32 state only where supported (R91), and a sound configuration. -/
def Obligations.StepKeepsInvariant : Prop :=
  ∀ (s s' : State), s.Inv → step s = .next s' → s'.Inv

/-- The reset state meets the invariant, is at EL3 in AArch64 state, and has one value in `History` (R261, R263). The level
and the configuration are the model's choice (log 1, log 4). -/
def Obligations.ResetMeetsInvariant : Prop :=
  State.reset.Inv ∧ AtEL3 State.reset ∧ OneTcrValue State.reset ∧ NoEvent State.reset

/-- R5: the configuration is constant over a run. -/
def Obligations.StepKeepsConfiguration : Prop :=
  ∀ (s s' : State), step s = .next s' → s'.cfg = s.cfg

/-- R31: TCR_EL3 changes in a step only by a reset, or by an MSR TCR_EL3 that ran at EL3 untrapped and stored the whole of
its operand. -/
def Obligations.OnlyMsrAndResetWriteTcr : Prop :=
  ∀ (s s' : State), step s = .next s' → s'.tcrEL3 ≠ s.tcrEL3 →
    (∃ rest, s.events = .warmReset :: rest) ∨
    (s.events = [] ∧ AtEL3 s ∧ s.tcrWriteTraps = false ∧
      ∃ bs s₁ rest t, s.fetch = .next (bs, s₁) ∧ decode bs = .ok (.msrTcrEL3 t, rest) ∧ s'.tcrEL3 = s.readX t)

/-- R90: SPSR_EL3 changes in a step only by a reset, an exception return in EL3, an exception taken to EL3 (an event, or
the trapped write of TCR_EL3), which saves PSTATE in it, or an MSR SPSR_EL3, which stores the whole of its operand. -/
def Obligations.OnlyFourThingsWriteSpsr : Prop :=
  ∀ (s s' : State), step s = .next s' → s'.spsrEL3 ≠ s.spsrEL3 →
    (∃ rest, s.events = .warmReset :: rest) ∨
    (∃ rest, s.events = .exceptionReturn :: rest) ∨
    ((∃ k y rest, s.events = .exceptionToEL3 k y :: rest) ∧ s'.spsrEL3 = savedPState s.cfg s.pstate) ∨
    (s.events = [] ∧ AtEL3 s ∧
      ∃ bs s₁ rest t, s.fetch = .next (bs, s₁) ∧
        ((decode bs = .ok (.msrSpsrEL3 t, rest) ∧ s'.spsrEL3 = s.readX t) ∨
         (decode bs = .ok (.msrTcrEL3 t, rest) ∧ s.tcrWriteTraps = true ∧
          s'.spsrEL3 = savedPState s.cfg s.pstate)))

/-- R188, R240: below EL3 no instruction of the spec answers a next state: with no event to come, a step stops, so no
lower level changes anything. That the machine stops is the model's: UNDEFINED is a fault (decision D5, log 11), AArch32 state
is refused (decision D17, log 27), and MSR SPSR_EL3 is UNDEFINED there (decision D7, log 21). -/
def Obligations.NoInstructionCompletesBelowEL3 : Prop :=
  ∀ (s : State), NoEvent s → s.pstate.el ≠ .el3 → ¬ ∃ s', step s = .next s'

/-- R240: a step changes the Exception level only by a reset, an exception taken to EL3, which goes to EL3, or an
exception return, which starts at EL3. -/
def Obligations.LevelChangesOnlyByEntryReturnOrReset : Prop :=
  ∀ (s s' : State), step s = .next s' → s'.pstate.el ≠ s.pstate.el →
    (∃ rest, s.events = .warmReset :: rest) ∨
    ((∃ k y rest, s.events = .exceptionToEL3 k y :: rest) ∧ s'.pstate.el = .el3) ∨
    ((∃ rest, s.events = .exceptionReturn :: rest) ∧ s.pstate.el = .el3)

/-- R170: `History` only grows within a run: unless the step is a reset it is a prefix of what it becomes, and no value is
added but the new value of TCR_EL3. -/
def Obligations.HistoryOnlyGrows : Prop :=
  ∀ (s s' : State), step s = .next s' → (∀ rest, s.events ≠ .warmReset :: rest) →
    s'.history = s.history ∨ s'.history = s.history ++ [s'.tcrEL3]

/-- R166, R205, R171: with the EL3 translation regime disabled no step changes a byte of memory. That a Warm reset leaves
memory is the model's choice (log 33), and so is that an access event moves no data (log 13). -/
def Obligations.StepKeepsMemoryWithRegimeDisabled : Prop :=
  ∀ (s s' : State), step s = .next s' → s.regimeEnabled = false →
    ∀ a, Memory.read s'.mem a = Memory.read s.mem a

/-- R261, R262, R263 (log 33): the Warm reset event. TCR_EL3 and SPSR_EL3 become free values, two different draws;
`History` restarts with the value of TCR_EL3; everything no source gives a reset value for is as the launch premises of
the configuration say. -/
def Obligations.WarmResetRestartsTheMachine : Prop :=
  ∀ (s : State) (rest : List Event), s.events = .warmReset :: rest →
    ∃ s', step s = .next s' ∧ s'.tcrEL3 = Config.unknown64 s.draws ∧ s'.spsrEL3 = Config.unknown64 (s.draws + 1) ∧
      s'.history = [s'.tcrEL3] ∧ s'.pstate = s.cfg.launch.pstate ∧ s'.pc = s.cfg.launch.pc ∧
      s'.fgwte3Tcr = s.cfg.launch.fgwte3Tcr ∧ s'.ttbr0EL3 = s.cfg.launch.ttbr0EL3 ∧ s'.x = s.cfg.launch.x ∧
      s'.regimeEnabled = s.cfg.launch.regimeEnabled ∧ s'.vbarEL3 = s.cfg.launch.vbarEL3 ∧
      s'.elrEL3 = s.cfg.launch.elrEL3 ∧ s'.esrEL3 = s.cfg.launch.esrEL3 ∧
      s'.cfg = s.cfg ∧ s'.events = rest ∧ (∀ a, Memory.read s'.mem a = Memory.read s.mem a)
end

