-- ==== Sys2Proof/Laws/Bits.lean ====
section
/-! SUPPORT. The laws of bit fields (one bit of every operation, a field as its bits) and of the general registers. -/

namespace Sys2Proof.Machine

@[simp] theorem bit_or (a b : Word) (n : Nat) : bit (a ||| b) n = (bit a n || bit b n) := by simp [bit]

@[simp] theorem bit_and (a b : Word) (n : Nat) : bit (a &&& b) n = (bit a n && bit b n) := by simp [bit]

@[simp] theorem bit_xor (a b : Word) (n : Nat) : bit (a ^^^ b) n = (bit a n ^^ bit b n) := by simp [bit]

@[simp] theorem bit_not (a : Word) (n : Nat) : bit (~~~ a) n = (decide (n < 64) && !bit a n) := by simp [bit]

@[simp] theorem bit_zero (n : Nat) : bit 0#64 n = false := by simp [bit]

/-- A bit placed is that bit and no other. -/
@[simp] theorem bit_placeBit (b : Bool) (m n : Nat) : bit (placeBit b m) n = (b && decide (n = m ∧ n < 64)) := by
  cases b
  · simp [placeBit]
  · by_cases h : n = m
    · subst h
      simp [placeBit, bit]
    · have : n < m ∨ n - m ≠ 0 := by omega
      simp only [placeBit, bit, if_true, BitVec.getLsbD_shiftLeft]
      rcases this with h1 | h1 <;> simp [h, h1]

/-- A field placed is its bits from its lowest on, and no other bit. -/
@[simp] theorem bit_placeField {width : Nat} (v : BitVec width) (lo n : Nat) :
    bit (placeField v lo) n = (decide (n < 64) && decide (lo ≤ n) && v.getLsbD (n - lo)) := by
  simp only [placeField, bit, BitVec.getLsbD_shiftLeft, BitVec.getLsbD_setWidth]
  rw [Bool.eq_iff_iff]
  simp only [Bool.and_eq_true, decide_eq_true_eq, Bool.not_eq_true', decide_eq_false_iff_not]
  constructor
  · rintro ⟨⟨h1, h2⟩, -, h3⟩
    exact ⟨⟨h1, by omega⟩, h3⟩
  · rintro ⟨⟨h1, h2⟩, h3⟩
    exact ⟨⟨h1, by omega⟩, by omega, h3⟩

/-- A mask has the bits of its field. -/
@[simp] theorem bit_fieldMask (hi lo n : Nat) :
    bit (fieldMask hi lo) n = (decide (n < 64) && decide (lo ≤ n) && decide (n - lo < hi - lo + 1)) := by
  simp only [fieldMask, bit, BitVec.getLsbD_shiftLeft, BitVec.getLsbD_setWidth, BitVec.getLsbD_allOnes]
  rw [Bool.eq_iff_iff]
  simp only [Bool.and_eq_true, decide_eq_true_eq, Bool.not_eq_true', decide_eq_false_iff_not]
  omega

@[simp] theorem bit_maskWhen (c : Bool) (hi lo n : Nat) :
    bit (maskWhen c hi lo) n = (c && bit (fieldMask hi lo) n) := by
  cases c <;> simp [maskWhen, bit]

/-- A bit of a field is a bit of the register. -/
@[simp] theorem getLsbD_slice (w : Word) (lo width k : Nat) :
    (slice w lo width).getLsbD k = (decide (k < width) && bit w (lo + k)) := by simp [slice, bit]

@[simp] theorem getElem_slice (w : Word) (lo width k : Nat) (h : k < width) : (slice w lo width)[k] = bit w (lo + k) := by
  simp [slice, bit]

/-- A field is the value its bits spell. -/
theorem slice_eq_of_bits {w : Word} {lo width : Nat} {v : BitVec width}
    (h : ∀ k (hk : k < width), bit w (lo + k) = v[k]) : slice w lo width = v :=
  BitVec.eq_of_getElem_eq fun k hk => by simp [h k hk]

/-- Two registers with the same 64 bits are equal. -/
theorem eq_of_bits {a b : Word} (h : ∀ n < 64, bit a n = bit b n) : a = b :=
  BitVec.eq_of_getLsbD_eq h

/-- Two fields whose registers agree on the field's bits are equal. -/
theorem slice_congr {a b : Word} {lo width : Nat} (h : ∀ k < width, bit a (lo + k) = bit b (lo + k)) :
    slice a lo width = slice b lo width :=
  BitVec.eq_of_getLsbD_eq fun k hk => by simp [h k hk]

/-- A register written reads back, for a number below 31. -/
@[simp] theorem State.readX_writeX_same (s : State) {t : Nat} (v : Word) (h : t < 31) : (s.writeX t v).readX t = v := by
  simp [State.readX, State.writeX, h]

/-- A write leaves every other register alone. -/
theorem State.readX_writeX_other (s : State) {t k : Nat} (v : Word) (h : k ≠ t) :
    (s.writeX t v).readX k = s.readX k := by
  by_cases hk : k < 31 <;> simp [State.readX, State.writeX, hk, Ne.symm h]

/-- A write to the zero register, or to no register, is discarded. -/
theorem State.writeX_of_ge (s : State) {t : Nat} (v : Word) (h : 31 ≤ t) : s.writeX t v = s := by
  have : s.x.setIfInBounds t v = s.x :=
    Vector.ext fun i hi => Vector.getElem_setIfInBounds_ne _ (by omega)
  simp [State.writeX, this]

/-- The zero register reads zero. -/
theorem State.readX_of_ge (s : State) {t : Nat} (h : 31 ≤ t) : s.readX t = 0 := by
  simp [State.readX, h]

end Sys2Proof.Machine
end

