-- ==== Sys2Proof/Laws/Memory.lean ====
section
/-! SUPPORT. The laws of memory: a read after a write, the canonical form kept by every operation, and reading back what
was stored. -/

namespace Sys2Proof.Machine

theorem Memory.read_nil (k : Nat) : Memory.read [] k = none := rfl

/-- A byte written is the byte read there. -/
theorem Memory.read_write_same (m : Memory) (k : Nat) (v : Byte) : (m.write k v).read k = some v := by
  induction m with
  | nil => simp [Memory.write, Memory.read]
  | cons c rest ih =>
    obtain ⟨a, b⟩ := c
    by_cases h1 : k < a
    · simp [Memory.write, Memory.read, h1]
    · by_cases h2 : k = a
      · simp [Memory.write, Memory.read, h2]
      · simp [Memory.write, Memory.read, h1, h2, ih]

/-- A lower bound of a list that rises is below all of it, so a smaller address is not listed. -/
theorem Memory.read_of_lt {low : Nat} {m : Memory} (h : cellsRise (some low) m = true) {k : Nat} (hk : k ≤ low) :
    m.read k = none := by
  cases m with
  | nil => rfl
  | cons c rest =>
    obtain ⟨a, b⟩ := c
    have ha : low < a := by
      simp only [cellsRise, Option.all_some, Bool.and_eq_true, decide_eq_true_eq] at h
      exact h.1.1
    simp [Memory.read, show ¬ k = a by omega, show k < a by omega]

/-- A write leaves every other byte alone. -/
theorem Memory.read_write_other {low : Option Nat} {m : Memory} (h : cellsRise low m = true) {k j : Nat} (v : Byte)
    (hjk : j ≠ k) : (m.write k v).read j = m.read j := by
  induction m generalizing low with
  | nil => simp [Memory.write, Memory.read, hjk]
  | cons c rest ih =>
    obtain ⟨a, b⟩ := c
    have hr : cellsRise (some a) rest = true := by
      simp only [cellsRise, Bool.and_eq_true] at h
      exact h.2
    by_cases h1 : k < a
    · by_cases h2 : j < k
      · simp [Memory.write, Memory.read, h1, hjk, h2, show ¬ j = a by omega, show j < a by omega]
      · simp [Memory.write, Memory.read, h1, hjk, h2]
    · by_cases h2 : k = a
      · subst h2
        simp [Memory.write, Memory.read, hjk]
      · by_cases h3 : j = a
        · simp [Memory.write, Memory.read, h1, h2, h3]
        · simp [Memory.write, Memory.read, h1, h2, h3, ih hr]

/-- A weaker lower bound. -/
theorem cellsRise_none {low : Option Nat} {m : Memory} (h : cellsRise low m = true) : cellsRise none m = true := by
  cases m with
  | nil => rfl
  | cons c rest =>
    simp only [cellsRise, Bool.and_eq_true, decide_eq_true_eq] at h ⊢
    exact ⟨⟨rfl, h.1.2⟩, h.2⟩

/-- Writing an address above the lower bound keeps the list rising above it. -/
theorem cellsRise_write {low : Option Nat} {m : Memory} (h : cellsRise low m = true) {k : Nat} (v : Byte)
    (hlow : low.all (· < k) = true) (hk : k < 2 ^ 64) : cellsRise low (m.write k v) = true := by
  induction m generalizing low with
  | nil => simp only [Memory.write, cellsRise, hlow, decide_eq_true hk, Bool.and_self]
  | cons c rest ih =>
    obtain ⟨a, b⟩ := c
    simp only [cellsRise, Bool.and_eq_true, decide_eq_true_eq] at h
    obtain ⟨⟨ha, hlt⟩, hr⟩ := h
    by_cases h1 : k < a
    · simp only [Memory.write, h1, if_true, cellsRise, hlow, decide_eq_true hk, decide_eq_true hlt, hr,
        Option.all_some, decide_true, Bool.and_self]
    · by_cases h2 : k = a
      · simp only [Memory.write, h2, if_true, if_false, lt_irrefl, cellsRise, ha, decide_eq_true hlt, hr,
          Bool.and_self]
      · simp only [Memory.write, h1, h2, if_false, cellsRise, ha, decide_eq_true hlt,
          ih hr (by simp; omega), Bool.and_self]

/-- A write keeps the canonical form. -/
theorem Memory.wf_write {m : Memory} (h : m.wf = true) {k : Nat} (v : Byte) (hk : k < 2 ^ 64) :
    (m.write k v).wf = true := cellsRise_write h v rfl hk

/-- The walker's writes keep the canonical form. -/
theorem Memory.wf_writeAll {m : Memory} (h : m.wf = true) (u : List (Word × Byte)) : (m.writeAll u).wf = true := by
  induction u generalizing m with
  | nil => exact h
  | cons c rest ih => exact ih (Memory.wf_write h c.2 c.1.isLt)

/-- Storing bytes keeps the canonical form. -/
theorem Memory.wf_writeBytes {m : Memory} (h : m.wf = true) (a : Word) (bs : List Byte) :
    (m.writeBytes a bs).wf = true := by
  induction bs generalizing m a with
  | nil => exact h
  | cons b rest ih => exact ih (Memory.wf_write h b a.isLt) (a + 1)

theorem address_succ (a : Word) (k : Nat) : a + 1 + BitVec.ofNat 64 k = a + BitVec.ofNat 64 (k + 1) := by
  rw [Nat.add_comm k 1, BitVec.ofNat_add, ← BitVec.add_assoc]
  rfl

/-- Storing bytes leaves every address outside them alone. -/
theorem Memory.read_writeBytes_other {m : Memory} (h : m.wf = true) (a : Word) (bs : List Byte) {j : Nat}
    (hj : ∀ k < bs.length, j ≠ (a + BitVec.ofNat 64 k).toNat) : (m.writeBytes a bs).read j = m.read j := by
  induction bs generalizing m a with
  | nil => rfl
  | cons b rest ih =>
    have h0 : j ≠ a.toNat := by simpa using hj 0 (by simp)
    rw [Memory.writeBytes, ih (Memory.wf_write h b a.isLt) (a + 1), Memory.read_write_other h b h0]
    intro k hk
    have := hj (k + 1) (by simp; omega)
    rwa [address_succ]

/-- The bytes stored at an address are the bytes read there, for at most 2^64 of them. -/
theorem Memory.readBytes_writeBytes {m : Memory} (h : m.wf = true) (a : Word) (bs : List Byte)
    (hlen : bs.length ≤ 2 ^ 64) : (m.writeBytes a bs).readBytes a bs.length = .ok bs := by
  induction bs generalizing m a with
  | nil => rfl
  | cons b rest ih =>
    have hw := Memory.wf_write h b a.isLt
    have hfirst : ((m.write a.toNat b).writeBytes (a + 1) rest).read a.toNat = some b := by
      rw [Memory.read_writeBytes_other hw, Memory.read_write_same]
      intro k hk he
      simp only [List.length_cons] at hlen
      have hlt : k + 1 < 2 ^ 64 := by omega
      have : a + 1 + BitVec.ofNat 64 k = a := BitVec.eq_of_toNat_eq he.symm
      rw [address_succ] at this
      have h4 := congrArg BitVec.toNat this
      rw [BitVec.toNat_add, BitVec.toNat_ofNat] at h4
      have := a.isLt
      omega
    simp only [Memory.writeBytes, List.length_cons, Memory.readBytes, hfirst]
    rw [ih hw (a + 1) (by simp at hlen; omega)]

end Sys2Proof.Machine
end

