-- ==== Sys2Proof/Laws/State.lean ====
section
/-! SUPPORT. One lemma per field of State and update: what each update writes and what it leaves alone. -/

namespace Sys2Proof.Machine

/-! ## writeX -/

@[simp] theorem State.writeX_cfg (s : State) (t : Nat) (v : Word) :
    (s.writeX t v).cfg = s.cfg := rfl

@[simp] theorem State.writeX_tcrEL3 (s : State) (t : Nat) (v : Word) :
    (s.writeX t v).tcrEL3 = s.tcrEL3 := rfl

@[simp] theorem State.writeX_spsrEL3 (s : State) (t : Nat) (v : Word) :
    (s.writeX t v).spsrEL3 = s.spsrEL3 := rfl

@[simp] theorem State.writeX_pstate (s : State) (t : Nat) (v : Word) :
    (s.writeX t v).pstate = s.pstate := rfl

@[simp] theorem State.writeX_x (s : State) (t : Nat) (v : Word) :
    (s.writeX t v).x = s.x.setIfInBounds t v := rfl

@[simp] theorem State.writeX_pc (s : State) (t : Nat) (v : Word) :
    (s.writeX t v).pc = s.pc := rfl

@[simp] theorem State.writeX_fgwte3Tcr (s : State) (t : Nat) (v : Word) :
    (s.writeX t v).fgwte3Tcr = s.fgwte3Tcr := rfl

@[simp] theorem State.writeX_ttbr0EL3 (s : State) (t : Nat) (v : Word) :
    (s.writeX t v).ttbr0EL3 = s.ttbr0EL3 := rfl

@[simp] theorem State.writeX_regimeEnabled (s : State) (t : Nat) (v : Word) :
    (s.writeX t v).regimeEnabled = s.regimeEnabled := rfl

@[simp] theorem State.writeX_history (s : State) (t : Nat) (v : Word) :
    (s.writeX t v).history = s.history := rfl

@[simp] theorem State.writeX_vbarEL3 (s : State) (t : Nat) (v : Word) :
    (s.writeX t v).vbarEL3 = s.vbarEL3 := rfl

@[simp] theorem State.writeX_elrEL3 (s : State) (t : Nat) (v : Word) :
    (s.writeX t v).elrEL3 = s.elrEL3 := rfl

@[simp] theorem State.writeX_esrEL3 (s : State) (t : Nat) (v : Word) :
    (s.writeX t v).esrEL3 = s.esrEL3 := rfl

@[simp] theorem State.writeX_mem (s : State) (t : Nat) (v : Word) :
    (s.writeX t v).mem = s.mem := rfl

@[simp] theorem State.writeX_events (s : State) (t : Nat) (v : Word) :
    (s.writeX t v).events = s.events := rfl

@[simp] theorem State.writeX_draws (s : State) (t : Nat) (v : Word) :
    (s.writeX t v).draws = s.draws := rfl

/-! ## writeTcr -/

@[simp] theorem State.writeTcr_cfg (s : State) (v : Word) :
    (s.writeTcr v).cfg = s.cfg := rfl

@[simp] theorem State.writeTcr_tcrEL3 (s : State) (v : Word) :
    (s.writeTcr v).tcrEL3 = v := rfl

@[simp] theorem State.writeTcr_spsrEL3 (s : State) (v : Word) :
    (s.writeTcr v).spsrEL3 = s.spsrEL3 := rfl

@[simp] theorem State.writeTcr_pstate (s : State) (v : Word) :
    (s.writeTcr v).pstate = s.pstate := rfl

@[simp] theorem State.writeTcr_x (s : State) (v : Word) :
    (s.writeTcr v).x = s.x := rfl

@[simp] theorem State.writeTcr_pc (s : State) (v : Word) :
    (s.writeTcr v).pc = s.pc := rfl

@[simp] theorem State.writeTcr_fgwte3Tcr (s : State) (v : Word) :
    (s.writeTcr v).fgwte3Tcr = s.fgwte3Tcr := rfl

@[simp] theorem State.writeTcr_ttbr0EL3 (s : State) (v : Word) :
    (s.writeTcr v).ttbr0EL3 = s.ttbr0EL3 := rfl

@[simp] theorem State.writeTcr_regimeEnabled (s : State) (v : Word) :
    (s.writeTcr v).regimeEnabled = s.regimeEnabled := rfl

@[simp] theorem State.writeTcr_history (s : State) (v : Word) :
    (s.writeTcr v).history = s.history ++ [v] := rfl

@[simp] theorem State.writeTcr_vbarEL3 (s : State) (v : Word) :
    (s.writeTcr v).vbarEL3 = s.vbarEL3 := rfl

@[simp] theorem State.writeTcr_elrEL3 (s : State) (v : Word) :
    (s.writeTcr v).elrEL3 = s.elrEL3 := rfl

@[simp] theorem State.writeTcr_esrEL3 (s : State) (v : Word) :
    (s.writeTcr v).esrEL3 = s.esrEL3 := rfl

@[simp] theorem State.writeTcr_mem (s : State) (v : Word) :
    (s.writeTcr v).mem = s.mem := rfl

@[simp] theorem State.writeTcr_events (s : State) (v : Word) :
    (s.writeTcr v).events = s.events := rfl

@[simp] theorem State.writeTcr_draws (s : State) (v : Word) :
    (s.writeTcr v).draws = s.draws := rfl

/-! ## writeSpsr -/

@[simp] theorem State.writeSpsr_cfg (s : State) (v : Word) :
    (s.writeSpsr v).cfg = s.cfg := rfl

@[simp] theorem State.writeSpsr_tcrEL3 (s : State) (v : Word) :
    (s.writeSpsr v).tcrEL3 = s.tcrEL3 := rfl

@[simp] theorem State.writeSpsr_spsrEL3 (s : State) (v : Word) :
    (s.writeSpsr v).spsrEL3 = v := rfl

@[simp] theorem State.writeSpsr_pstate (s : State) (v : Word) :
    (s.writeSpsr v).pstate = s.pstate := rfl

@[simp] theorem State.writeSpsr_x (s : State) (v : Word) :
    (s.writeSpsr v).x = s.x := rfl

@[simp] theorem State.writeSpsr_pc (s : State) (v : Word) :
    (s.writeSpsr v).pc = s.pc := rfl

@[simp] theorem State.writeSpsr_fgwte3Tcr (s : State) (v : Word) :
    (s.writeSpsr v).fgwte3Tcr = s.fgwte3Tcr := rfl

@[simp] theorem State.writeSpsr_ttbr0EL3 (s : State) (v : Word) :
    (s.writeSpsr v).ttbr0EL3 = s.ttbr0EL3 := rfl

@[simp] theorem State.writeSpsr_regimeEnabled (s : State) (v : Word) :
    (s.writeSpsr v).regimeEnabled = s.regimeEnabled := rfl

@[simp] theorem State.writeSpsr_history (s : State) (v : Word) :
    (s.writeSpsr v).history = s.history := rfl

@[simp] theorem State.writeSpsr_vbarEL3 (s : State) (v : Word) :
    (s.writeSpsr v).vbarEL3 = s.vbarEL3 := rfl

@[simp] theorem State.writeSpsr_elrEL3 (s : State) (v : Word) :
    (s.writeSpsr v).elrEL3 = s.elrEL3 := rfl

@[simp] theorem State.writeSpsr_esrEL3 (s : State) (v : Word) :
    (s.writeSpsr v).esrEL3 = s.esrEL3 := rfl

@[simp] theorem State.writeSpsr_mem (s : State) (v : Word) :
    (s.writeSpsr v).mem = s.mem := rfl

@[simp] theorem State.writeSpsr_events (s : State) (v : Word) :
    (s.writeSpsr v).events = s.events := rfl

@[simp] theorem State.writeSpsr_draws (s : State) (v : Word) :
    (s.writeSpsr v).draws = s.draws := rfl

/-! ## complete -/

@[simp] theorem State.complete_cfg (s : State) :
    (s.complete).cfg = s.cfg := rfl

@[simp] theorem State.complete_tcrEL3 (s : State) :
    (s.complete).tcrEL3 = s.tcrEL3 := rfl

@[simp] theorem State.complete_spsrEL3 (s : State) :
    (s.complete).spsrEL3 = s.spsrEL3 := rfl

@[simp] theorem State.complete_pstate (s : State) :
    (s.complete).pstate = s.pstate := rfl

@[simp] theorem State.complete_x (s : State) :
    (s.complete).x = s.x := rfl

@[simp] theorem State.complete_pc (s : State) :
    (s.complete).pc = s.pc + 4 := rfl

@[simp] theorem State.complete_fgwte3Tcr (s : State) :
    (s.complete).fgwte3Tcr = s.fgwte3Tcr := rfl

@[simp] theorem State.complete_ttbr0EL3 (s : State) :
    (s.complete).ttbr0EL3 = s.ttbr0EL3 := rfl

@[simp] theorem State.complete_regimeEnabled (s : State) :
    (s.complete).regimeEnabled = s.regimeEnabled := rfl

@[simp] theorem State.complete_history (s : State) :
    (s.complete).history = s.history := rfl

@[simp] theorem State.complete_vbarEL3 (s : State) :
    (s.complete).vbarEL3 = s.vbarEL3 := rfl

@[simp] theorem State.complete_elrEL3 (s : State) :
    (s.complete).elrEL3 = s.elrEL3 := rfl

@[simp] theorem State.complete_esrEL3 (s : State) :
    (s.complete).esrEL3 = s.esrEL3 := rfl

@[simp] theorem State.complete_mem (s : State) :
    (s.complete).mem = s.mem := rfl

@[simp] theorem State.complete_events (s : State) :
    (s.complete).events = s.events := rfl

@[simp] theorem State.complete_draws (s : State) :
    (s.complete).draws = s.draws + 1 := rfl

/-! ## savePState -/

@[simp] theorem State.savePState_cfg (s : State) :
    (s.savePState).cfg = s.cfg := rfl

@[simp] theorem State.savePState_tcrEL3 (s : State) :
    (s.savePState).tcrEL3 = s.tcrEL3 := rfl

@[simp] theorem State.savePState_spsrEL3 (s : State) :
    (s.savePState).spsrEL3 = savedPState s.cfg s.pstate := rfl

@[simp] theorem State.savePState_pstate (s : State) :
    (s.savePState).pstate = s.pstate := rfl

@[simp] theorem State.savePState_x (s : State) :
    (s.savePState).x = s.x := rfl

@[simp] theorem State.savePState_pc (s : State) :
    (s.savePState).pc = s.pc := rfl

@[simp] theorem State.savePState_fgwte3Tcr (s : State) :
    (s.savePState).fgwte3Tcr = s.fgwte3Tcr := rfl

@[simp] theorem State.savePState_ttbr0EL3 (s : State) :
    (s.savePState).ttbr0EL3 = s.ttbr0EL3 := rfl

@[simp] theorem State.savePState_regimeEnabled (s : State) :
    (s.savePState).regimeEnabled = s.regimeEnabled := rfl

@[simp] theorem State.savePState_history (s : State) :
    (s.savePState).history = s.history := rfl

@[simp] theorem State.savePState_vbarEL3 (s : State) :
    (s.savePState).vbarEL3 = s.vbarEL3 := rfl

@[simp] theorem State.savePState_elrEL3 (s : State) :
    (s.savePState).elrEL3 = s.elrEL3 := rfl

@[simp] theorem State.savePState_esrEL3 (s : State) :
    (s.savePState).esrEL3 = s.esrEL3 := rfl

@[simp] theorem State.savePState_mem (s : State) :
    (s.savePState).mem = s.mem := rfl

@[simp] theorem State.savePState_events (s : State) :
    (s.savePState).events = s.events := rfl

@[simp] theorem State.savePState_draws (s : State) :
    (s.savePState).draws = s.draws := rfl

/-! ## takeExceptionToEL3 -/

@[simp] theorem State.takeExceptionToEL3_cfg (s : State) (k : ExceptionKind) (y : Word) :
    (s.takeExceptionToEL3 k y).cfg = s.cfg := rfl

@[simp] theorem State.takeExceptionToEL3_tcrEL3 (s : State) (k : ExceptionKind) (y : Word) :
    (s.takeExceptionToEL3 k y).tcrEL3 = s.tcrEL3 := rfl

@[simp] theorem State.takeExceptionToEL3_spsrEL3 (s : State) (k : ExceptionKind) (y : Word) :
    (s.takeExceptionToEL3 k y).spsrEL3 = savedPState s.cfg s.pstate := rfl

@[simp] theorem State.takeExceptionToEL3_pstate (s : State) (k : ExceptionKind) (y : Word) :
    (s.takeExceptionToEL3 k y).pstate = entryPState (s.draws + 1) := rfl

@[simp] theorem State.takeExceptionToEL3_x (s : State) (k : ExceptionKind) (y : Word) :
    (s.takeExceptionToEL3 k y).x = s.x := rfl

@[simp] theorem State.takeExceptionToEL3_pc (s : State) (k : ExceptionKind) (y : Word) :
    (s.takeExceptionToEL3 k y).pc = s.targetPc (s.draws + 1) s.cfg.tbiClearsEntryPc (s.vbarEL3 + vectorOffset s.pstate k) := rfl

@[simp] theorem State.takeExceptionToEL3_fgwte3Tcr (s : State) (k : ExceptionKind) (y : Word) :
    (s.takeExceptionToEL3 k y).fgwte3Tcr = s.fgwte3Tcr := rfl

@[simp] theorem State.takeExceptionToEL3_ttbr0EL3 (s : State) (k : ExceptionKind) (y : Word) :
    (s.takeExceptionToEL3 k y).ttbr0EL3 = s.ttbr0EL3 := rfl

@[simp] theorem State.takeExceptionToEL3_regimeEnabled (s : State) (k : ExceptionKind) (y : Word) :
    (s.takeExceptionToEL3 k y).regimeEnabled = s.regimeEnabled := rfl

@[simp] theorem State.takeExceptionToEL3_history (s : State) (k : ExceptionKind) (y : Word) :
    (s.takeExceptionToEL3 k y).history = s.history := rfl

@[simp] theorem State.takeExceptionToEL3_vbarEL3 (s : State) (k : ExceptionKind) (y : Word) :
    (s.takeExceptionToEL3 k y).vbarEL3 = s.vbarEL3 := rfl

@[simp] theorem State.takeExceptionToEL3_elrEL3 (s : State) (k : ExceptionKind) (y : Word) :
    (s.takeExceptionToEL3 k y).elrEL3 = s.pc := rfl

@[simp] theorem State.takeExceptionToEL3_esrEL3 (s : State) (k : ExceptionKind) (y : Word) :
    (s.takeExceptionToEL3 k y).esrEL3 = y := rfl

@[simp] theorem State.takeExceptionToEL3_mem (s : State) (k : ExceptionKind) (y : Word) :
    (s.takeExceptionToEL3 k y).mem = s.mem := rfl

@[simp] theorem State.takeExceptionToEL3_events (s : State) (k : ExceptionKind) (y : Word) :
    (s.takeExceptionToEL3 k y).events = s.events := rfl

@[simp] theorem State.takeExceptionToEL3_draws (s : State) (k : ExceptionKind) (y : Word) :
    (s.takeExceptionToEL3 k y).draws = s.draws + 2 := rfl

/-! ## returnedFromEL3 -/

@[simp] theorem State.returnedFromEL3_cfg (s : State) :
    (s.returnedFromEL3).cfg = s.cfg := rfl

@[simp] theorem State.returnedFromEL3_tcrEL3 (s : State) :
    (s.returnedFromEL3).tcrEL3 = s.tcrEL3 := rfl

@[simp] theorem State.returnedFromEL3_spsrEL3 (s : State) :
    (s.returnedFromEL3).spsrEL3 = Config.unknown64 s.draws := rfl

@[simp] theorem State.returnedFromEL3_pstate (s : State) :
    (s.returnedFromEL3).pstate = restoredPState s.cfg s.spsrEL3 (Config.unknownBit s.draws) (Config.unknownBit (s.draws + 1)) s.pstate := rfl

@[simp] theorem State.returnedFromEL3_x (s : State) :
    (s.returnedFromEL3).x = s.x := rfl

@[simp] theorem State.returnedFromEL3_pc (s : State) :
    (s.returnedFromEL3).pc = s.returnPc := rfl

@[simp] theorem State.returnedFromEL3_fgwte3Tcr (s : State) :
    (s.returnedFromEL3).fgwte3Tcr = s.fgwte3Tcr := rfl

@[simp] theorem State.returnedFromEL3_ttbr0EL3 (s : State) :
    (s.returnedFromEL3).ttbr0EL3 = s.ttbr0EL3 := rfl

@[simp] theorem State.returnedFromEL3_regimeEnabled (s : State) :
    (s.returnedFromEL3).regimeEnabled = s.regimeEnabled := rfl

@[simp] theorem State.returnedFromEL3_history (s : State) :
    (s.returnedFromEL3).history = s.history := rfl

@[simp] theorem State.returnedFromEL3_vbarEL3 (s : State) :
    (s.returnedFromEL3).vbarEL3 = s.vbarEL3 := rfl

@[simp] theorem State.returnedFromEL3_elrEL3 (s : State) :
    (s.returnedFromEL3).elrEL3 = s.elrEL3 := rfl

@[simp] theorem State.returnedFromEL3_esrEL3 (s : State) :
    (s.returnedFromEL3).esrEL3 = s.esrEL3 := rfl

@[simp] theorem State.returnedFromEL3_mem (s : State) :
    (s.returnedFromEL3).mem = s.mem := rfl

@[simp] theorem State.returnedFromEL3_events (s : State) :
    (s.returnedFromEL3).events = s.events := rfl

@[simp] theorem State.returnedFromEL3_draws (s : State) :
    (s.returnedFromEL3).draws = s.draws + 2 := rfl

/-! ## warmReset -/

@[simp] theorem State.warmReset_cfg (s : State) :
    (s.warmReset).cfg = s.cfg := rfl

@[simp] theorem State.warmReset_tcrEL3 (s : State) :
    (s.warmReset).tcrEL3 = Config.unknown64 s.draws := rfl

@[simp] theorem State.warmReset_spsrEL3 (s : State) :
    (s.warmReset).spsrEL3 = Config.unknown64 (s.draws + 1) := rfl

@[simp] theorem State.warmReset_pstate (s : State) :
    (s.warmReset).pstate = s.cfg.launch.pstate := rfl

@[simp] theorem State.warmReset_x (s : State) :
    (s.warmReset).x = s.cfg.launch.x := rfl

@[simp] theorem State.warmReset_pc (s : State) :
    (s.warmReset).pc = s.cfg.launch.pc := rfl

@[simp] theorem State.warmReset_fgwte3Tcr (s : State) :
    (s.warmReset).fgwte3Tcr = s.cfg.launch.fgwte3Tcr := rfl

@[simp] theorem State.warmReset_ttbr0EL3 (s : State) :
    (s.warmReset).ttbr0EL3 = s.cfg.launch.ttbr0EL3 := rfl

@[simp] theorem State.warmReset_regimeEnabled (s : State) :
    (s.warmReset).regimeEnabled = s.cfg.launch.regimeEnabled := rfl

@[simp] theorem State.warmReset_history (s : State) :
    (s.warmReset).history = [Config.unknown64 s.draws] := rfl

@[simp] theorem State.warmReset_vbarEL3 (s : State) :
    (s.warmReset).vbarEL3 = s.cfg.launch.vbarEL3 := rfl

@[simp] theorem State.warmReset_elrEL3 (s : State) :
    (s.warmReset).elrEL3 = s.cfg.launch.elrEL3 := rfl

@[simp] theorem State.warmReset_esrEL3 (s : State) :
    (s.warmReset).esrEL3 = s.cfg.launch.esrEL3 := rfl

@[simp] theorem State.warmReset_mem (s : State) :
    (s.warmReset).mem = s.mem := rfl

@[simp] theorem State.warmReset_events (s : State) :
    (s.warmReset).events = s.events := rfl

@[simp] theorem State.warmReset_draws (s : State) :
    (s.warmReset).draws = s.draws + 2 := rfl

/-! ## withUpdates -/

@[simp] theorem State.withUpdates_cfg (s : State) (u : List (Word × Byte)) :
    (s.withUpdates u).cfg = s.cfg := rfl

@[simp] theorem State.withUpdates_tcrEL3 (s : State) (u : List (Word × Byte)) :
    (s.withUpdates u).tcrEL3 = s.tcrEL3 := rfl

@[simp] theorem State.withUpdates_spsrEL3 (s : State) (u : List (Word × Byte)) :
    (s.withUpdates u).spsrEL3 = s.spsrEL3 := rfl

@[simp] theorem State.withUpdates_pstate (s : State) (u : List (Word × Byte)) :
    (s.withUpdates u).pstate = s.pstate := rfl

@[simp] theorem State.withUpdates_x (s : State) (u : List (Word × Byte)) :
    (s.withUpdates u).x = s.x := rfl

@[simp] theorem State.withUpdates_pc (s : State) (u : List (Word × Byte)) :
    (s.withUpdates u).pc = s.pc := rfl

@[simp] theorem State.withUpdates_fgwte3Tcr (s : State) (u : List (Word × Byte)) :
    (s.withUpdates u).fgwte3Tcr = s.fgwte3Tcr := rfl

@[simp] theorem State.withUpdates_ttbr0EL3 (s : State) (u : List (Word × Byte)) :
    (s.withUpdates u).ttbr0EL3 = s.ttbr0EL3 := rfl

@[simp] theorem State.withUpdates_regimeEnabled (s : State) (u : List (Word × Byte)) :
    (s.withUpdates u).regimeEnabled = s.regimeEnabled := rfl

@[simp] theorem State.withUpdates_history (s : State) (u : List (Word × Byte)) :
    (s.withUpdates u).history = s.history := rfl

@[simp] theorem State.withUpdates_vbarEL3 (s : State) (u : List (Word × Byte)) :
    (s.withUpdates u).vbarEL3 = s.vbarEL3 := rfl

@[simp] theorem State.withUpdates_elrEL3 (s : State) (u : List (Word × Byte)) :
    (s.withUpdates u).elrEL3 = s.elrEL3 := rfl

@[simp] theorem State.withUpdates_esrEL3 (s : State) (u : List (Word × Byte)) :
    (s.withUpdates u).esrEL3 = s.esrEL3 := rfl

@[simp] theorem State.withUpdates_mem (s : State) (u : List (Word × Byte)) :
    (s.withUpdates u).mem = Memory.writeAll s.mem u := rfl

@[simp] theorem State.withUpdates_events (s : State) (u : List (Word × Byte)) :
    (s.withUpdates u).events = s.events := rfl

@[simp] theorem State.withUpdates_draws (s : State) (u : List (Word × Byte)) :
    (s.withUpdates u).draws = s.draws := rfl

/-! ## readyToFetch -/

@[simp] theorem State.readyToFetch_cfg (s : State) :
    (s.readyToFetch).cfg = s.cfg := rfl

@[simp] theorem State.readyToFetch_tcrEL3 (s : State) :
    (s.readyToFetch).tcrEL3 = s.tcrEL3 := rfl

@[simp] theorem State.readyToFetch_spsrEL3 (s : State) :
    (s.readyToFetch).spsrEL3 = s.spsrEL3 := rfl

@[simp] theorem State.readyToFetch_pstate (s : State) :
    (s.readyToFetch).pstate = { s.pstate with nRW := false } := rfl

@[simp] theorem State.readyToFetch_x (s : State) :
    (s.readyToFetch).x = s.x := rfl

@[simp] theorem State.readyToFetch_pc (s : State) :
    (s.readyToFetch).pc = s.pc &&& ~~~ 3 := rfl

@[simp] theorem State.readyToFetch_fgwte3Tcr (s : State) :
    (s.readyToFetch).fgwte3Tcr = s.fgwte3Tcr := rfl

@[simp] theorem State.readyToFetch_ttbr0EL3 (s : State) :
    (s.readyToFetch).ttbr0EL3 = s.ttbr0EL3 := rfl

@[simp] theorem State.readyToFetch_regimeEnabled (s : State) :
    (s.readyToFetch).regimeEnabled = false := rfl

@[simp] theorem State.readyToFetch_history (s : State) :
    (s.readyToFetch).history = s.history := rfl

@[simp] theorem State.readyToFetch_vbarEL3 (s : State) :
    (s.readyToFetch).vbarEL3 = s.vbarEL3 := rfl

@[simp] theorem State.readyToFetch_elrEL3 (s : State) :
    (s.readyToFetch).elrEL3 = s.elrEL3 := rfl

@[simp] theorem State.readyToFetch_esrEL3 (s : State) :
    (s.readyToFetch).esrEL3 = s.esrEL3 := rfl

@[simp] theorem State.readyToFetch_mem (s : State) :
    (s.readyToFetch).mem = s.mem := rfl

@[simp] theorem State.readyToFetch_events (s : State) :
    (s.readyToFetch).events = [] := rfl

@[simp] theorem State.readyToFetch_draws (s : State) :
    (s.readyToFetch).draws = s.draws := rfl

/-! ## placeInstruction -/

@[simp] theorem State.placeInstruction_cfg (s : State) (bs : List Byte) :
    (s.placeInstruction bs).cfg = s.cfg := rfl

@[simp] theorem State.placeInstruction_tcrEL3 (s : State) (bs : List Byte) :
    (s.placeInstruction bs).tcrEL3 = s.tcrEL3 := rfl

@[simp] theorem State.placeInstruction_spsrEL3 (s : State) (bs : List Byte) :
    (s.placeInstruction bs).spsrEL3 = s.spsrEL3 := rfl

@[simp] theorem State.placeInstruction_pstate (s : State) (bs : List Byte) :
    (s.placeInstruction bs).pstate = { s.pstate with nRW := false } := rfl

@[simp] theorem State.placeInstruction_x (s : State) (bs : List Byte) :
    (s.placeInstruction bs).x = s.x := rfl

@[simp] theorem State.placeInstruction_pc (s : State) (bs : List Byte) :
    (s.placeInstruction bs).pc = s.pc &&& ~~~ 3 := rfl

@[simp] theorem State.placeInstruction_fgwte3Tcr (s : State) (bs : List Byte) :
    (s.placeInstruction bs).fgwte3Tcr = s.fgwte3Tcr := rfl

@[simp] theorem State.placeInstruction_ttbr0EL3 (s : State) (bs : List Byte) :
    (s.placeInstruction bs).ttbr0EL3 = s.ttbr0EL3 := rfl

@[simp] theorem State.placeInstruction_regimeEnabled (s : State) (bs : List Byte) :
    (s.placeInstruction bs).regimeEnabled = false := rfl

@[simp] theorem State.placeInstruction_history (s : State) (bs : List Byte) :
    (s.placeInstruction bs).history = s.history := rfl

@[simp] theorem State.placeInstruction_vbarEL3 (s : State) (bs : List Byte) :
    (s.placeInstruction bs).vbarEL3 = s.vbarEL3 := rfl

@[simp] theorem State.placeInstruction_elrEL3 (s : State) (bs : List Byte) :
    (s.placeInstruction bs).elrEL3 = s.elrEL3 := rfl

@[simp] theorem State.placeInstruction_esrEL3 (s : State) (bs : List Byte) :
    (s.placeInstruction bs).esrEL3 = s.esrEL3 := rfl

@[simp] theorem State.placeInstruction_mem (s : State) (bs : List Byte) :
    (s.placeInstruction bs).mem = Memory.writeBytes s.mem s.readyToFetch.plainFetchAddress bs := rfl

@[simp] theorem State.placeInstruction_events (s : State) (bs : List Byte) :
    (s.placeInstruction bs).events = [] := rfl

@[simp] theorem State.placeInstruction_draws (s : State) (bs : List Byte) :
    (s.placeInstruction bs).draws = s.draws := rfl

end Sys2Proof.Machine
end

