-- ==== Sys2Proof/Laws/Ops.lean ====
section
/-! SUPPORT. One lemma per shared operation: everything it can do when it answers. Later proofs cite these and do not
unfold the operation. -/

namespace Sys2Proof.Machine

/-! ## The checks of R204 -/

/-- The checks permit an access exactly at EL3 of a PE that has it, in AArch64 state. -/
theorem accessVerdict_permitted {s : State} : s.accessVerdict = .permitted ↔ AtEL3 s := by
  cases h1 : s.pstate.nRW <;> cases h2 : s.cfg.haveEL3 <;> cases h3 : s.pstate.el <;>
    simp [State.accessVerdict, AtEL3, h1, h2, h3]

/-- In AArch64 state, without EL3 or below it, the checks answer UNDEFINED. -/
theorem accessVerdict_undefined {s : State} :
    s.accessVerdict = .undefined ↔ s.pstate.nRW = false ∧ (s.cfg.haveEL3 = false ∨ s.pstate.el ≠ .el3) := by
  cases h1 : s.pstate.nRW <;> cases h2 : s.cfg.haveEL3 <;> cases h3 : s.pstate.el <;>
    simp [State.accessVerdict, h1, h2, h3]

/-- The checks answer AArch32 exactly in AArch32 state. -/
theorem accessVerdict_aarch32 {s : State} : s.accessVerdict = .aarch32 ↔ s.pstate.nRW = true := by
  cases h1 : s.pstate.nRW <;> cases h2 : s.cfg.haveEL3 <;> cases h3 : s.pstate.el <;>
    simp [State.accessVerdict, h1, h2, h3]

/-! ## The TLB copy -/

/-- With one value in `History` there is no choice. -/
@[simp] theorem pickField_singleton {α : Type} [DecidableEq α] (h current : Word) (n : Nat) (f : TcrField)
    (g : Word → α) : pickField [h] current n f g = g h := by
  simp [pickField]

/-- What a translation sees of a field is that field of some value of `History` (R170). -/
theorem pickField_mem {α : Type} [DecidableEq α] {hist : List Word} (hne : hist ≠ []) (current : Word) (n : Nat)
    (f : TcrField) (g : Word → α) : ∃ h ∈ hist, pickField hist current n f g = g h := by
  cases hist with
  | nil => exact absurd rfl hne
  | cons h rest =>
    by_cases hall : rest.all (fun h' => decide (g h' = g h)) = true
    · exact ⟨h, by simp, by simp only [pickField, hall, if_true]⟩
    · have hlt : Config.tlbPick n f % (rest.length + 1) < (h :: rest).length := Nat.mod_lt _ (by simp)
      refine ⟨(h :: rest).getD (Config.tlbPick n f % (rest.length + 1)) h, ?_, ?_⟩
      · rw [List.getD_eq_getElem _ _ hlt]
        exact List.getElem_mem hlt
      · simp only [pickField, hall, if_false, Bool.false_eq_true]

/-! ## Exceptions -/

/-- An entry that answers a next state took R239's assumption, and the state is the whole entry. -/
theorem exceptionToEL3_next {s s' : State} {k : ExceptionKind} {y : Word} {stop : State → Fault}
    (h : s.exceptionToEL3 k y stop = .next s') : s.cfg.assumesEntryR239 = true ∧ s' = s.takeExceptionToEL3 k y := by
  unfold State.exceptionToEL3 at h
  split at h
  · exact ⟨‹_›, by cases h; rfl⟩
  · cases h

/-- A return that answers a next state was made at EL3, was legal, and restored the saved state. -/
theorem exceptionReturn_next {s s' : State} (h : s.exceptionReturn = .next s') :
    s.canReturnFromEL3 = true ∧ illegalReturn s.cfg s.spsrEL3 = false ∧ s' = s.returnedFromEL3 := by
  unfold State.exceptionReturn at h
  split at h
  · cases h
  · split at h
    · cases h
    · cases h
      simp_all

/-- Where a return can occur: at EL3 of a PE that has it, in AArch64 state. -/
theorem canReturnFromEL3_iff {s : State} : s.canReturnFromEL3 = true ↔ AtEL3 s := by
  simp [State.canReturnFromEL3, AtEL3, and_assoc]

/-- The address stored in the pc, with or without its top byte (R238). -/
theorem targetPc_holds (s : State) (n : Nat) (listed : Bool) (a : Word) :
    PcHolds (s.targetPc n listed a) a (listed && tbiApplies s.cfg (s.seenEffective n) .instruction) := by
  unfold PcHolds State.targetPc
  split
  · exact ⟨slice_eq_of_bits fun k hk => by simp [clearTopByte]; omega,
      slice_congr fun k hk => by simp [clearTopByte]; omega⟩
  · rfl

/-! ## Accesses of the EL3 regime -/

/-- The address that takes part in the match is its own. -/
@[simp] theorem matchedAddress_matchedAddress (c : Cfg) (e : Effective) (acc : Access) (va : Word) :
    matchedAddress c e acc (matchedAddress c e acc va) = matchedAddress c e acc va := by
  unfold matchedAddress
  split
  · exact eq_of_bits fun n hn => by simp [clearTopByte]
  · rfl

/-- A walk sees of an address what takes part in the address match, and nothing else (R157). -/
theorem walkRequest_congr {c : Cfg} {e : Effective} {acc : Access} {va va' : Word} (ttbr0 : Word) (mem : List Host.Cell)
    (h : matchedAddress c e acc va = matchedAddress c e acc va') :
    walkRequest c e ttbr0 mem va acc = walkRequest c e ttbr0 mem va' acc := by
  simp only [walkRequest, h]

/-- A translation that answers an address passed every check of R163, and its answer is the walk's under R154 and R159. -/
theorem translateEL3_mapped {c : Cfg} {e : Effective} {ttbr0 va pa : Word} {mem : List Host.Cell} {acc : Access}
    {n : Nat} {u : List (Word × Byte)} (h : translateEL3 c e ttbr0 mem va acc n = .mapped pa u) :
    t0szMin e ≤ e.t0sz.toNat ∧ e.sh0 ≠ 0b01 ∧ psHasMeaning c e.ps = true ∧ e.t0sz.toNat ≤ c.t0szMax ∧
    ∃ pa₀ u₀, pa = constrainOutput e pa₀ ∧ u = allowedUpdates e u₀ := by
  unfold translateEL3 at h
  split at h
  · cases h
  · split at h
    · cases h
    · split at h
      · cases h
      · split at h
        · cases h
        · split at h
          · cases h
            refine ⟨by omega, ‹_›, by simp_all, by omega, _, _, rfl, rfl⟩
          · cases h

theorem State.withUpdates_nil (s : State) : s.withUpdates [] = s := rfl

/-- A tag check that answers changed nothing, and passed. -/
theorem checkTags_next {s s' : State} {tags : TagControls} {n : Nat} {va pa pa' : Word}
    (h : s.checkTags tags n va pa = .next (pa', s')) : pa' = pa ∧ s' = s ∧
      tagCheckPasses (s.tagCheckRequest tags va pa) n = true := by
  unfold State.checkTags at h
  split at h
  · cases h
    exact ⟨rfl, rfl, ‹_›⟩
  · cases h

/-- No tag check is made of an access MTX does not act on. -/
theorem checkTags_of_not_mtxActs {s : State} {c : Cfg} {e : Effective} {acc : Access} {n : Nat} {va pa : Word}
    (h : mtxActs e acc = false) : s.checkTags (tagControls c e acc va) n va pa = .next (pa, s) := by
  simp [State.checkTags, State.tagCheckRequest, tagCheckPasses, tagControls, h]

/-- MTX does not act on an instruction fetch. -/
@[simp] theorem mtxActs_instruction (e : Effective) : mtxActs e .instruction = false := rfl

/-- MTX does not act on an address of a maintenance instruction (log 43). -/
@[simp] theorem mtxActs_maintenance (e : Effective) : mtxActs e .maintenance = false := rfl

/-- An access that answers an address changed nothing but the bytes the walker wrote, and wrote none with the regime
disabled. -/
theorem accessEL3_next {s s' : State} {n : Nat} {va pa : Word} {acc : Access} (h : s.accessEL3 n va acc = .next (pa, s')) :
    (s.regimeEnabled = false ∧ s' = s ∧ pa = s.untranslatedAddress n va acc) ∨
    (s.regimeEnabled = true ∧ ∃ u, translateEL3 s.cfg (s.seenEffective n) s.ttbr0EL3 s.mem va acc n = .mapped pa u ∧
      s' = s.withUpdates u) := by
  unfold State.accessEL3 at h
  split at h
  · rename_i hr
    obtain ⟨rfl, rfl, -⟩ := checkTags_next h
    exact .inl ⟨by simpa using hr, rfl, rfl⟩
  · rename_i hr
    split at h
    · rename_i hm
      obtain ⟨rfl, rfl, -⟩ := checkTags_next h
      exact .inr ⟨by simpa using hr, _, hm, rfl⟩
    · cases h
    · cases h

/-- An access changes at most memory, by bytes the walker wrote. -/
theorem accessEL3_updates {s s' : State} {n : Nat} {va pa : Word} {acc : Access}
    (h : s.accessEL3 n va acc = .next (pa, s')) : ∃ u, s' = s.withUpdates u := by
  rcases accessEL3_next h with ⟨-, rfl, -⟩ | ⟨-, u, -, rfl⟩
  · exact ⟨[], rfl⟩
  · exact ⟨u, rfl⟩

end Sys2Proof.Machine
end

