-- ==== Sys2Proof/Laws/PerInstr.lean ====
section
/-! SUPPORT. Families of statements about an instruction as syntax, one lemma per constructor. -/

namespace Sys2Proof.Laws

/-- The fields of an instruction's word: L and the register's tuple are the ones R181 to R184 give it. -/
def EncodingTuple.Statement (i : Instr) : Prop :=
  (wordFields (encode i)).l = directionBit (instrDirection i) ∧
  (wordFields (encode i)).tuple = sysRegTuple (instrSysReg i)

/-- Reading the fields of a word made of fields gives the fields. -/
theorem wordFields_wordOfFields (f : WordFields) : wordFields (wordOfFields f) = f := by
  obtain ⟨l, ⟨op0, op1, crn, crm, op2⟩, rt⟩ := f
  simp only [wordFields, wordOfFields, WordFields.mk.injEq, SysRegTuple.mk.injEq]
  refine ⟨?_, ⟨?_, ?_, ?_, ?_, ?_⟩, ?_⟩ <;> bv_normalize

theorem EncodingTuple.mrsTcrEL3 (t : Nat) : EncodingTuple.Statement (.mrsTcrEL3 t) := by
  simp [EncodingTuple.Statement, encode, wordFields_wordOfFields]

theorem EncodingTuple.msrTcrEL3 (t : Nat) : EncodingTuple.Statement (.msrTcrEL3 t) := by
  simp [EncodingTuple.Statement, encode, wordFields_wordOfFields]

theorem EncodingTuple.mrsSpsrEL3 (t : Nat) : EncodingTuple.Statement (.mrsSpsrEL3 t) := by
  simp [EncodingTuple.Statement, encode, wordFields_wordOfFields]

theorem EncodingTuple.msrSpsrEL3 (t : Nat) : EncodingTuple.Statement (.msrSpsrEL3 t) := by
  simp [EncodingTuple.Statement, encode, wordFields_wordOfFields]

end Sys2Proof.Laws
end

