-- ==== Sys2Proof/Laws/Step.lean ====
section
/-! SUPPORT. What exec, an event, a fetch and a step can do when they answer a next state: one inversion lemma each. -/

namespace Sys2Proof.Machine

/-- What an instruction does when it answers a next state: it ran at EL3, and did one of five things. -/
theorem exec_next {i : Instr} {s s' : State} (h : exec i s = .next s') :
    AtEL3 s ∧
    ((∃ t, i = .mrsTcrEL3 t ∧ s' = (s.writeX t (tcrReadView s.cfg s.tcrEL3)).complete) ∨
     (∃ t, i = .msrTcrEL3 t ∧ s.tcrWriteTraps = false ∧ s' = (s.writeTcr (s.readX t)).complete) ∨
     (∃ t, i = .msrTcrEL3 t ∧ s.tcrWriteTraps = true ∧ s.cfg.assumesEntryR239 = true ∧
        s' = s.takeExceptionToEL3 .synchronous (sysAccessSyndrome i)) ∨
     (∃ t, i = .mrsSpsrEL3 t ∧ s' = (s.writeX t (spsrReadView s.cfg s.spsrEL3)).complete) ∨
     (∃ t, i = .msrSpsrEL3 t ∧ s' = (s.writeSpsr (s.readX t)).complete)) := by
  cases i with
  | mrsTcrEL3 t =>
    simp only [exec, execMrsTcrEL3] at h
    split at h
    · cases h
    · cases h
    · rename_i hv
      cases h
      exact ⟨accessVerdict_permitted.mp hv, .inl ⟨t, rfl, rfl⟩⟩
  | msrTcrEL3 t =>
    simp only [exec, execMsrTcrEL3] at h
    split at h
    · cases h
    · cases h
    · rename_i hv
      refine ⟨accessVerdict_permitted.mp hv, ?_⟩
      split at h
      · rename_i ht
        obtain ⟨ha, rfl⟩ := exceptionToEL3_next h
        exact .inr (.inr (.inl ⟨t, rfl, ht, ha, rfl⟩))
      · rename_i ht
        cases h
        exact .inr (.inl ⟨t, rfl, by simpa using ht, rfl⟩)
  | mrsSpsrEL3 t =>
    simp only [exec, execMrsSpsrEL3] at h
    split at h
    · cases h
    · cases h
    · rename_i hv
      cases h
      exact ⟨accessVerdict_permitted.mp hv, .inr (.inr (.inr (.inl ⟨t, rfl, rfl⟩)))⟩
  | msrSpsrEL3 t =>
    simp only [exec, execMsrSpsrEL3] at h
    split at h
    · cases h
    · cases h
    · rename_i hv
      cases h
      exact ⟨accessVerdict_permitted.mp hv, .inr (.inr (.inr (.inr ⟨t, rfl, rfl⟩)))⟩

/-- What an event does when it answers a next state. -/
theorem handleEvent_next {s s' : State} {e : Event} (h : s.handleEvent e = .next s') :
    (e = .warmReset ∧ s' = s.warmReset) ∨
    (e = .exceptionReturn ∧ AtEL3 s ∧ illegalReturn s.cfg s.spsrEL3 = false ∧ s' = s.returnedFromEL3) ∨
    (∃ k y, e = .exceptionToEL3 k y ∧ s.canEnterEL3 = true ∧ s.cfg.assumesEntryR239 = true ∧
      s' = s.takeExceptionToEL3 k y) ∨
    (∃ va acc pa s₁, e = .access va acc ∧ AtEL3 s ∧ s.accessEL3 s.draws va acc = .next (pa, s₁) ∧
      s' = { s₁ with draws := s₁.draws + 1 }) := by
  cases e with
  | warmReset =>
    cases h
    exact .inl ⟨rfl, rfl⟩
  | exceptionReturn =>
    obtain ⟨h1, h2, rfl⟩ := exceptionReturn_next h
    exact .inr (.inl ⟨rfl, canReturnFromEL3_iff.mp h1, h2, rfl⟩)
  | exceptionToEL3 k y =>
    simp only [State.handleEvent] at h
    split at h
    · rename_i hc
      obtain ⟨ha, rfl⟩ := exceptionToEL3_next h
      exact .inr (.inr (.inl ⟨k, y, rfl, hc, ha, rfl⟩))
    · cases h
  | access va acc =>
    simp only [State.handleEvent, State.environmentAccess] at h
    split at h
    · cases h
    · rename_i hc
      split at h
      · rename_i pa s₁ ha
        cases h
        exact .inr (.inr (.inr ⟨va, acc, pa, s₁, rfl, canReturnFromEL3_iff.mp (by simpa using hc), ha, rfl⟩))
      · cases h
      · cases h

/-- A fetch that answers bytes was made in AArch64 state at an aligned pc, and read them at the address the access gave. -/
theorem fetch_next {s s' : State} {bs : List Byte} (h : s.fetch = .next (bs, s')) :
    s.pstate.nRW = false ∧ pcAligned s.pc = true ∧
    ∃ pa, s.fetchAccess = .next (pa, s') ∧ Memory.readBytes s'.mem pa instrBytes = .ok bs := by
  unfold State.fetch at h
  split at h
  · cases h
  · rename_i hn
    split at h
    · cases h
    · rename_i ha
      split at h
      · rename_i pa s₁ hf
        split at h
        · rename_i hb
          cases h
          exact ⟨by simpa using hn, by simpa using ha, pa, hf, hb⟩
        · cases h
      · cases h
      · cases h

/-- A fetch changes at most memory, by bytes the walker wrote. -/
theorem fetch_updates {s s' : State} {bs : List Byte} (h : s.fetch = .next (bs, s')) : ∃ u, s' = s.withUpdates u := by
  obtain ⟨-, -, pa, hf, -⟩ := fetch_next h
  unfold State.fetchAccess at hf
  split at hf
  · exact accessEL3_updates hf
  · cases hf
    exact ⟨[], rfl⟩

/-- What an instruction step does when it answers a next state: it fetched bytes that spell an instruction, and ran it. -/
theorem stepInstr_next {s s' : State} (h : stepInstr s = .next s') :
    ∃ bs s₁ i rest, s.fetch = .next (bs, s₁) ∧ decode bs = .ok (i, rest) ∧ exec i s₁ = .next s' := by
  unfold stepInstr at h
  split at h
  · rename_i bs s₁ hf
    unfold runBytes at h
    split at h
    · rename_i i rest hd
      exact ⟨bs, s₁, i, rest, hf, hd, h⟩
    · cases h
  · cases h
  · cases h

/-- What a step does when it answers a next state: the environment's next event, or else an instruction. -/
theorem step_next {s s' : State} (h : step s = .next s') :
    (∃ e rest, s.events = e :: rest ∧ State.handleEvent { s with events := rest } e = .next s') ∨
    (s.events = [] ∧ ∃ bs s₁ i rest, s.fetch = .next (bs, s₁) ∧ decode bs = .ok (i, rest) ∧ exec i s₁ = .next s') := by
  unfold step at h
  split at h
  · rename_i e rest he
    exact .inl ⟨e, rest, he, h⟩
  · rename_i he
    exact .inr ⟨he, stepInstr_next h⟩

end Sys2Proof.Machine
end

