-- ==== Sys2Proof/Tests/Slice0.lean ====
section
/-! SUPPORT. Tests: the vectors of 95_test_vectors.md (V, AC, EN, X) and the worked examples of the rules, each expected value
copied from there; the well-formedness smoke test; and, for each statement with hypotheses, a witness that meets them. -/

open Sys2Proof Sys2Proof.Machine

/-! ## Helpers: the configurations and start states of 95_test_vectors.md -/

/-- `cfgFull`. -/
def testCfgFull : Cfg :=
  { Cfg.base with
    featD128 := true, featHaft := true, featThe := true, featAie := true, featS1poe := true, featS1pie := true,
    featMteNoAddressTags := true, featMteCanonicalTags := true, featLpa2 := true, featLva := true, featMte2 := true,
    featPauth := true, featHpds2 := true, featHpds := true, featHafdbs := true, featFgwte3 := true }

/-- `cfgStored`. -/
def testCfgStored : Cfg := { Cfg.base with resStoredTcr := -1, resStoredSpsr := -1 }

/-- `cfgNo16`. -/
def testCfgNo16 : Cfg := { Cfg.base with granules := ⟨true, false, true⟩, tg0ReadbackProgrammed := false }

/-- AArch32 supported, with the AArch32-visible features of vector EN6. -/
def testCfg32 : Cfg :=
  { Cfg.base with aarch32Supported := true, featDit := true, featSsbs := true, featPan := true }

/-- Every feature of SPSR_EL3's AArch64 layout (vector EN3). -/
def testCfgSpsr : Cfg :=
  { Cfg.base with
    featGcs := true, featSebep := true, featEbep := true, featMte := true, featMte2 := true, featDit := true,
    featUao := true, featPan := true, featNmi := true, featSsbs := true, featBti := true }

/-- The start state of 2.4: TCR_EL3 = A, SPSR_EL3 = B, x[1] = C, at EL3. -/
def testStart (c : Cfg) : State :=
  { State.reset with
    cfg := c, tcrEL3 := 0x80853520, history := [0x80853520], spsrEL3 := 0x600003CD,
    x := (Vector.replicate 31 0).set 1 0x80803510, pc := 0x1000 }

/-- The start state at another Exception level. -/
def testAt (c : Cfg) (el : EL) : State :=
  { testStart c with pstate := { Launch.pstateBase with el := el } }

/-- The start state with FGWTE3_EL3.TCR_EL3 = 1 and FEAT_FGWTE3. -/
def testTrapping (assumes : Bool) : State :=
  { testStart { Cfg.base with featFgwte3 := true, assumesEntryR239 := assumes } with fgwte3Tcr := true }

/-- A property of the next state, false of a stop. -/
def testAfter (o : Host.Outcome State Fault Refusal) (p : State → Bool) : Bool :=
  match o with
  | .next s => p s
  | .fault _ => false
  | .refused _ => false

/-- PSTATE of vector EN3. -/
def testEN3 : PState :=
  { Launch.pstateBase with
    el := .el1, sp := true, n := true, v := true, d := true, a := false, i := true, f := false, exlock := true,
    pm := true, tco := true, dit := true, pan := true, allint := true, ssbs := true, btype := 0b10 }

/-- PSTATE of vector EN6. -/
def testEN6 : PState :=
  { Launch.pstateBase with
    el := .el1, nRW := true, n := true, c := true, q := true, it := 0b10100110, ge := 0b1001, a := true, i := true,
    f := false, t := true, m := 0b0011, dit := true, ssbs := true }

/-! ## WellFormed: an ill-formed term for each constructor is refused -/

theorem test_wf_mrs_tcr : ¬ WellFormed (.mrsTcrEL3 32) := by decide
theorem test_wf_msr_tcr : ¬ WellFormed (.msrTcrEL3 32) := by decide
theorem test_wf_mrs_spsr : ¬ WellFormed (.mrsSpsrEL3 32) := by decide
theorem test_wf_msr_spsr : ¬ WellFormed (.msrSpsrEL3 32) := by decide

/-! ## Decoding (2.1; the words from the fields of R182 to R184, written out bit by bit) -/

theorem test_decode_mrs_tcr : decodeWord 0b1101010100_1_11_110_0010_0000_010_00101 = some (.mrsTcrEL3 5) := by decide
theorem test_decode_msr_tcr : decodeWord 0b1101010100_0_11_110_0010_0000_010_11110 = some (.msrTcrEL3 30) := by decide
theorem test_decode_mrs_spsr : decodeWord 0b1101010100_1_11_110_0100_0000_000_00010 = some (.mrsSpsrEL3 2) := by decide
theorem test_decode_msr_spsr : decodeWord 0b1101010100_0_11_110_0100_0000_000_11111 = some (.msrSpsrEL3 31) := by decide
theorem test_encode : [encode (.mrsTcrEL3 5), encode (.msrTcrEL3 30), encode (.mrsSpsrEL3 2), encode (.msrSpsrEL3 31)] =
    [0xD53E2045, 0xD51E205E, 0xD53E4002, 0xD51E401F] := by decide
theorem test_decode_others : [0xD53E2020, 0xD53E2140, 0xD53C2040, 0xD53E6040, 0xD51E4020, 0xD51E2060, 0xD503201F,
    0x00000000].map decodeWord = List.replicate 8 none := by decide
theorem test_decode_bytes : decode [0x41, 0x20, 0x1E, 0xD5, 0xFF] = .ok (.msrTcrEL3 1, [0xFF]) := by decide
theorem test_decode_truncated : decode [0x40, 0x20, 0x3E] = .error .truncated := by decide
theorem test_table_word : decodeTableWord 32 0xD53E4002 = some (.mrsSpsrEL3 2) := by decide

/-! ## The four instructions (2.4) -/

theorem test_mrs_tcr : testAfter (exec (.mrsTcrEL3 0) (testStart Cfg.base))
    (fun s => s.readX 0 == 0x80853520 && s.pc == 0x1004) = true := by decide
theorem test_mrs_tcr_below : exec (.mrsTcrEL3 31) (testAt Cfg.base .el1) = .fault (.undefined (.mrsTcrEL3 31)) := rfl
theorem test_msr_tcr : testAfter (exec (.msrTcrEL3 1) (testStart testCfgFull))
    (fun s => s.tcrEL3 == 0x80803510 && s.history == [0x80853520, 0x80803510]) = true := by decide
theorem test_msr_tcr_trapped : testAfter (exec (.msrTcrEL3 1) (testTrapping true))
    (fun s => s.tcrEL3 == 0x80853520 && s.spsrEL3 == 0x3CD && s.esrEL3 == 0x62358820 && s.elrEL3 == 0x1000 &&
      slice s.pc 0 56 == 0x200) = true := by decide
theorem test_mrs_spsr : testAfter (exec (.mrsSpsrEL3 2) (testStart Cfg.base)) (fun s => s.readX 2 == 0x600003CD) = true := by
  decide
theorem test_mrs_spsr_below : exec (.mrsSpsrEL3 2) (testAt Cfg.base .el2) = .fault (.undefined (.mrsSpsrEL3 2)) := rfl
theorem test_msr_spsr : testAfter (exec (.msrSpsrEL3 1) { testStart testCfgFull with fgwte3Tcr := true })
    (fun s => s.spsrEL3 == 0x80803510) = true := by decide
theorem test_msr_spsr_below : exec (.msrSpsrEL3 1) (testAt Cfg.base .el0) = .fault (.undefined (.msrSpsrEL3 1)) := rfl

/-! ## Read view and Effective values of TCR_EL3 (2.2) -/

theorem test_v2 : tcrReadView Cfg.base 0xFFFFFFFFFFFFFFFF = 0x8097FF3F := by decide
theorem test_v3 : tcrReadView testCfgFull 0xFFFFFFFFFFFFFFFF = 0x00000E7EFFF7FF3F := by decide
theorem test_v4 : tcrReadView Cfg.base 0 = 0x80800000 := by decide
theorem test_v7 : tcrReadView testCfgFull 0x18080750C = 0x8080750C ∧ (effective testCfgFull 0x18080750C).ds = false := by
  decide
theorem test_v8 : tcrReadView testCfgFull 0x4080803519 = 0x4C80803519 ∧ (effective testCfgFull 0x4080803519).pie = true := by
  decide
theorem test_v10 : tcrReadView { testCfgFull with featHpds := false } 0x9E803520 = 0x9E803520 ∧
    (effective { testCfgFull with featHpds := false } 0x9E803520).hwu62 = false := by decide
theorem test_v15 : tcrReadView testCfgNo16 0x8080B520 = 0x80803520 ∧ (effective testCfgNo16 0x8080B520).tg0 = .kb4 := by
  decide
theorem test_v17 : tcrReadView { testCfgFull with pttwiFixed0 := true } 0x20080803520 = 0x80803520 := by decide
theorem test_v19 : tcrReadView { testCfgFull with featS1pie := false } 0x4080803520 = 0x4480803520 := by decide
theorem test_v21 : tcrReadView testCfgStored 0xFFFFFFFFFFFFFFFF = 0xFFFFFFFFFFFFFFFF := by decide
theorem test_v22 : tcrReadView testCfgStored 0 = 0 := by decide
theorem test_v23 : tcrReadView testCfgFull 0x80080803520 = 0x80803520 := by decide

/-! ## SPSR_EL3 on entry and return (2.5) -/

theorem test_en2 : savedPState Cfg.base { Launch.pstateBase with z := true, c := true, sp := false } = 0x600003CC := by decide
theorem test_en3 : savedPState testCfgSpsr testEN3 = 0x593403A85 := by decide
theorem test_en4 : savedPState Cfg.base testEN3 = 0x90000285 := by decide
theorem test_en6 : savedPState testCfg32 testEN6 = 0xAD89A5B3 := by decide
theorem test_en7 : savedPState { Cfg.base with aarch32Supported := true } testEN6 = 0xAC09A5B3 := by decide
theorem test_return_en3 : (restoredPState testCfgSpsr 0x593403A85 true true Launch.pstateBase).btype = 0b10 ∧
    (restoredPState testCfgSpsr 0x593403A85 true true Launch.pstateBase).el = .el1 := by decide
theorem test_return_it : (restoredPState testCfg32 0xAD89A5B3 true true Launch.pstateBase).it = 0b10100110 := by decide

/-- X1, X5 and X8 of 2.6: a legal return value, a reserved M[3:0], and AArch32 not supported. -/
theorem test_illegal_returns : [0x3C5, 0x3C0, 0x3CD, 0x3C1, 0x3C2, 0x3CF, 0x3D3].map (illegalReturn Cfg.base) =
    [false, false, false, true, true, true, true] := by decide

/-! ## Translation bounds (2.3) -/

theorem test_initial_level : initialLevel testCfgFull { effective testCfgFull 0x18080350C with tg0 := .kb4 } = some (-1) ∧
    initialLevel testCfgFull { effective testCfgFull 0x18080350C with tg0 := .kb16 } = some 0 ∧
    regionSize (effective testCfgFull 0x18080350C) = 2 ^ 52 := by decide

/-- 2.3: with DS = 0, T0SZ = 15 is below the minimum; no walk is made and no initial level stands (R152, C2). -/
theorem test_no_level_below_minimum : initialLevel testCfgFull (effective testCfgFull 0x8080350F) = none := by decide

/-- R52, R160: a Table descriptor of ones under HPD = 1; and APTable[0] and PXNTable of it under HPD = 0. -/
theorem test_hpd : (tableControls (effective testCfgFull 0x1000000) (-1)).apTable = 0 ∧
    (tableControls (effective testCfgFull 0x1000000) (-1)).pxnTable = false ∧
    (tableControls (effective testCfgFull 0) (-1)).pxnTable = true := by
  refine ⟨?_, rfl, rfl⟩
  simp [tableControls, hierarchicalKept, effective, effHPD, testCfgFull, bit]

/-! ## Witnesses: for each statement with hypotheses, a state and operands that meet them -/

theorem test_witness_DecodeInvertsEncode : WellFormed (.msrSpsrEL3 31) := by decide

theorem test_witness_EncodeInvertsDecode : decodeWord 0xD53E205F = some (.mrsTcrEL3 31) := by decide

theorem test_witness_OtherWordsAreRefused : (0xD503201F : InstrWord) &&& 0xFFFFFFE0 ≠ 0xD53E2040 ∧
    (0xD503201F : InstrWord) &&& 0xFFFFFFE0 ≠ 0xD51E2040 ∧ (0xD503201F : InstrWord) &&& 0xFFFFFFE0 ≠ 0xD53E4000 ∧
    (0xD503201F : InstrWord) &&& 0xFFFFFFE0 ≠ 0xD51E4000 := by decide

/-- The boundary operands 0 and 30. -/
theorem test_witness_MrsTcrEL3WritesReadView : AtEL3 (testStart Cfg.base) ∧ 0 < 31 ∧ 30 < 31 := by decide

/-- With the bit set and the feature absent, and with the feature and the bit clear. -/
theorem test_witness_MsrTcrEL3StoresAll64Bits :
    (AtEL3 { testStart Cfg.base with fgwte3Tcr := true } ∧
      ¬ (Cfg.base.featFgwte3 = true ∧ ({ testStart Cfg.base with fgwte3Tcr := true } : State).fgwte3Tcr = true)) ∧
    (AtEL3 (testStart testCfgFull) ∧
      ¬ (testCfgFull.featFgwte3 = true ∧ (testStart testCfgFull).fgwte3Tcr = true)) := by decide

theorem test_witness_MrsSpsrEL3WritesReadView : AtEL3 (testStart testCfgStored) ∧ 30 < 31 := by decide

theorem test_witness_MsrSpsrEL3StoresAll64Bits : AtEL3 (testTrapping true) := by decide

theorem test_witness_ZeroRegisterDiscardsAndReadsZero :
    AtEL3 (testStart Cfg.base) ∧ (testStart Cfg.base).tcrWriteTraps = false := by decide

theorem test_witness_CompletedInstructionAdvancesPcByFour :
    exec (.msrTcrEL3 1) (testStart Cfg.base) = .next ((testStart Cfg.base).writeTcr 0x80803510).complete ∧
    (testStart Cfg.base).tcrWriteTraps = false := ⟨rfl, rfl⟩

/-- An MRS under a set trap, and an MSR of each register. -/
theorem test_witness_InstructionFrame :
    (∃ s', exec (.mrsTcrEL3 30) (testTrapping true) = .next s') ∧
    (∃ s', exec (.msrTcrEL3 1) (testStart Cfg.base) = .next s' ∧ (testStart Cfg.base).tcrWriteTraps = false) ∧
    (∃ s', exec (.mrsSpsrEL3 31) (testStart Cfg.base) = .next s') ∧
    (∃ s', exec (.msrSpsrEL3 1) (testTrapping true) = .next s') :=
  ⟨⟨_, rfl⟩, ⟨_, rfl, rfl⟩, ⟨_, rfl⟩, ⟨_, rfl⟩⟩

theorem test_witness_ReadAfterWriteReturnsWritten :
    (∃ s₁ s₂, (testStart Cfg.base).tcrWriteTraps = false ∧ exec (.msrTcrEL3 1) (testStart Cfg.base) = .next s₁ ∧
      exec (.mrsTcrEL3 30) s₁ = .next s₂) ∧
    (∃ s₁ s₂, exec (.msrSpsrEL3 31) (testStart Cfg.base) = .next s₁ ∧ exec (.mrsSpsrEL3 0) s₁ = .next s₂) :=
  ⟨⟨_, _, rfl, rfl, rfl⟩, ⟨_, _, rfl, rfl⟩⟩

/-- Without EL3, and at each level below it. -/
theorem test_witness_AccessBelowEL3IsUndefined :
    (testStart { Cfg.base with haveEL3 := false }).cfg.haveEL3 = false ∧
    (testStart { Cfg.base with haveEL3 := false }).pstate.nRW = false ∧
    (∀ el ∈ [EL.el0, EL.el1, EL.el2], (testAt Cfg.base el).pstate.nRW = false ∧ (testAt Cfg.base el).pstate.el ≠ .el3) := by
  decide

theorem test_witness_AArch32StateIsRefused :
    ({ testStart testCfg32 with pstate := testEN6 } : State).pstate.nRW = true ∧
    NoEvent { testStart testCfg32 with pstate := testEN6 } := by decide

/-- A trapped write, and an exception event at EL1 and in AArch32 state, without R239's assumption. -/
theorem test_witness_EntryWithoutAssumptionStopsWithSavedState : AtEL3 (testTrapping false) ∧
    (testTrapping false).cfg.featFgwte3 = true ∧ (testTrapping false).fgwte3Tcr = true ∧
    (testTrapping false).cfg.assumesEntryR239 = false ∧
    (∀ s ∈ [{ testAt { Cfg.base with assumesEntryR239 := false } .el1 with events := [.exceptionToEL3 .irq 0] },
        { testStart { testCfg32 with assumesEntryR239 := false } with
          pstate := testEN6, events := [.exceptionToEL3 .irq 0] }],
      s.events = .exceptionToEL3 .irq 0 :: [] ∧ s.cfg.haveEL3 = true ∧
      (s.pstate.nRW = true → s.cfg.aarch32Supported = true) ∧ s.cfg.assumesEntryR239 = false) := by decide

/-- With SP_EL3 and with SP_EL0, and where the top byte of the pc is cleared and where it is not. -/
theorem test_witness_TrappedWriteEntersHandler : AtEL3 (testTrapping true) ∧
    (testTrapping true).cfg.featFgwte3 = true ∧ (testTrapping true).fgwte3Tcr = true ∧
    (testTrapping true).cfg.assumesEntryR239 = true ∧ (testTrapping true).pstate.sp = true ∧
    AtEL3 { testTrapping true with pstate := { Launch.pstateBase with sp := false } } ∧
    ((testTrapping true).cfg.tbiClearsEntryPc &&
      tbiApplies (testTrapping true).cfg ((testTrapping true).seenEffective 1) .instruction) = false ∧
    ((testTrapping true).cfg.tbiClearsEntryPc && tbiApplies (testTrapping true).cfg
      (State.seenEffective { testTrapping true with history := [0x100000] } 1) .instruction) = true := by decide

theorem test_witness_TrapSyndromeFields : WellFormed (.msrTcrEL3 31) := by decide

/-- A bit under each arm: read-only PTTWI, the chosen TG0, stored and not stored reserved bits, a live bit. -/
theorem test_witness_TcrReadViewBitByBit :
    (41 < 64 ∧ testCfgFull.featThe = true ∧ ({ testCfgFull with pttwiFixed0 := true } : Cfg).pttwiFixed0 = true) ∧
    testCfgNo16.tg0ReadbackProgrammed = false ∧
    (tcrReservedNow testCfgStored 0 63 = true ∧ bit testCfgStored.resStoredTcr 63 = true) ∧
    (tcrReservedNow Cfg.base 0 31 = true ∧ bit Cfg.base.resStoredTcr 31 = false) ∧ tcrReservedNow Cfg.base 0 0 = false := by
  decide

theorem test_witness_WritingBackTheReadViewKeepsEffective : CfgSound testCfgNo16 := by decide


theorem test_witness_GranuleChosenAndReadBack :
    (slice 0x8000 14 2 = encodeTG0 .kb16 ∧ implementsGranule Cfg.base .kb16 = true ∧
      implementsGranule testCfgNo16 .kb16 = false) ∧
    slice 0xC000 14 2 = 0b11 ∧ CfgSound testCfgNo16 := by decide

theorem test_witness_HwuFieldsNeedHpd :
    (effective testCfgFull 0x1E000000).hpd = false ∧ (effective testCfgFull 0x1F000000).hpd = true := by decide

theorem test_witness_PttwiLiveOrStuckAtZero :
    testCfgFull.featThe = true ∧ ({ testCfgFull with pttwiFixed0 := true } : Cfg).pttwiFixed0 = true := by decide

theorem test_witness_DirtyStateNeedsHdAndHa : testCfgFull.featHafdbs = true := by decide

theorem test_witness_EntryFromAArch64SavesPState : testEN3.nRW = false := by decide

theorem test_witness_EntryFromAArch32SavesPState : testEN6.nRW = true := by decide

/-- Returns to EL3h and, at the other end of the legal values, to EL0t; the pc with and without its top byte, and without R239's
assumption. -/
theorem test_witness_ReturnToAArch64Restores :
    (AtEL3 (testStart Cfg.base) ∧ bit 0x600003CD 4 = false ∧ illegalReturn Cfg.base 0x600003CD = false) ∧
    (bit 0x3C0 4 = false ∧ illegalReturn Cfg.base 0x3C0 = false ∧ slice 0x3C0 2 2 ≠ 0b11) ∧
    Cfg.base.featSebep = false ∧ testCfgSpsr.featSebep = true ∧
    (slice 0x600003CD 2 2 = 0b11 ∧ tbiApplies Cfg.base
      (State.seenEffective { testStart Cfg.base with history := [0x100000] } 0) .instruction = true) ∧
    AtEL3 (testStart { Cfg.base with assumesEntryR239 := false }) := by decide

/-- Each event at EL3, and each where it cannot occur. -/
theorem test_witness_EventStepsConsumeTheEvent :
    (∀ e ∈ [Event.exceptionReturn, .access 0x1000 .data],
      ({ testStart Cfg.base with events := [e, .warmReset] } : State).events = e :: [.warmReset] ∧
      AtEL3 { testStart Cfg.base with events := [e, .warmReset] } ∧
      ({ testAt Cfg.base .el1 with events := [e] } : State).events = e :: [] ∧
      ¬ AtEL3 { testAt Cfg.base .el1 with events := [e] }) := by decide

/-- X10: a return to AArch32 Supervisor mode, whatever level the mode belongs to, where every level supports little-endian
alone, big-endian alone, both byte orders, and neither. -/
theorem test_witness_ReturnToAArch32Restores : ∀ b l : Bool,
    let c : Cfg := { testCfg32 with bigEndian := ⟨b, b, b, b⟩, littleEndian := ⟨l, l, l, l⟩ }
    AtEL3 { testStart c with spsrEL3 := 0xAD89A5B3 } ∧ bit 0xAD89A5B3 4 = true ∧
      illegalReturn c 0xAD89A5B3 = false ∧ (∀ el, perEL c.bigEndian el = b ∧ perEL c.littleEndian el = l) := by
  intro b l
  refine ⟨⟨rfl, rfl, rfl⟩, by decide, ?_, fun el => by cases el <;> exact ⟨rfl, rfl⟩⟩
  have h1 : spsrIsAArch32 0xAD89A5B3 = true := by decide
  have h2 : legalM32.contains (slice 0xAD89A5B3 0 4) = true := by decide
  simp only [illegalReturn, spsrTargetEL, h1, h2, if_true]
  cases Config.aarch32ModeEL (slice 0xAD89A5B3 0 4) <;> rfl

/-- A reserved M[3:0], an unimplemented level (X5, X7), AArch32 not supported (X8), a reserved AArch32 mode; and a mode of an
unimplemented level, on a PE whose User mode is EL0's and which has no EL0. -/
theorem test_witness_IllegalReturnIsAFault : AtEL3 (testStart Cfg.base) ∧
    (bit 0x3C1 4 = false ∧ slice 0x3C1 0 4 ∉ [0b0000, 0b0100, 0b0101, 0b1000, 0b1001, 0b1100, 0b1101]) ∧
    (bit 0x3C8 4 = false ∧ implementedEL { Cfg.base with implEL2 := false } (EL.ofBits (slice 0x3C8 2 2)) = false) ∧
    (bit 0x3D3 4 = true ∧ Cfg.base.aarch32Supported = false) ∧
    (bit 0x3D4 4 = true ∧
      slice 0x3D4 0 4 ∉ [0b0000, 0b0001, 0b0010, 0b0011, 0b0110, 0b0111, 0b1010, 0b1011, 0b1111]) ∧
    (Config.aarch32ModeEL (slice 0x3D0 0 4) = .el0 →
      implementedEL { testCfg32 with implEL0 := false } (Config.aarch32ModeEL (slice 0x3D0 0 4)) = false) := by
  refine ⟨by decide, by decide, by decide, by decide, by decide, fun h => ?_⟩
  rw [h]
  rfl

/-- At EL0, where SP must be 0, and at EL3 with SP = 1. -/
theorem test_witness_ReturnUndoesEntryAArch64 :
    (∀ p ∈ [{ Launch.pstateBase with el := .el0, sp := false }, Launch.pstateBase], p.nRW = false ∧
      (p.el = .el0 → p.sp = false) ∧ implementedEL Cfg.base p.el = true) := by decide

/-- In each layout a bit under each arm: reserved and stored, reserved and not stored as 0 and as 1, and live; and the state an
entry saves. -/
theorem test_witness_SpsrReadViewBitByBit :
    (spsrReservedNow testCfgStored 0 63 = true ∧ bit testCfgStored.resStoredSpsr 63 = true) ∧
    (spsrReservedNow Cfg.base 0 63 = true ∧ bit Cfg.base.resStoredSpsr 63 = false) ∧ spsrReservedNow Cfg.base 0 0 = false ∧
    (spsrReservedNow { testCfg32 with resStoredSpsr := -1 } 0x10 63 = true ∧ spsrReservedNow testCfg32 0x10 63 = true ∧
      spsrReservedNow testCfg32 0x10 0 = false) ∧
    (spsrReservedNow { testCfg32 with bigEndian := ⟨true, true, true, true⟩, littleEndian := ⟨false, false, false, false⟩ }
        0x10 9 = true ∧
      spsrReservedAsOne
        { testCfg32 with bigEndian := ⟨true, true, true, true⟩, littleEndian := ⟨false, false, false, false⟩ } 0x10 9 = true) ∧
    testEN3.nRW = false := by decide

/-- From EL1 in AArch64 state and from AArch32 state. -/
theorem test_witness_ExceptionEventEntersHandler :
    (({ testAt Cfg.base .el1 with events := [.exceptionToEL3 .irq 0] } : State).events = .exceptionToEL3 .irq 0 :: [] ∧
      Cfg.base.haveEL3 = true ∧ (testAt Cfg.base .el1).pstate.nRW = false ∧ Cfg.base.assumesEntryR239 = true) ∧
    (testCfg32.haveEL3 = true ∧ testEN6.nRW = true ∧ testCfg32.aarch32Supported = true ∧
      testCfg32.assumesEntryR239 = true) := by decide

theorem test_witness_SeenFieldsComeFromHistory : ({ testStart Cfg.base with history := [1, 2] } : State).history ≠ [] := by
  decide

/-- An enabled regime under one value of TCR_EL3. -/
def testRegime (c : Cfg) (tcr : Word) : State :=
  { testStart c with tcrEL3 := tcr, history := [tcr], regimeEnabled := true }

/-- T0SZ = 15 with DS = 0, and T0SZ = 11 with DS = 1 (V9): the largest values below each minimum. -/
theorem test_witness_SmallT0szFaultsEveryAccess :
    (∀ s ∈ [testRegime Cfg.base 0x8080350F, testRegime testCfgFull 0x18080350B], OneTcrValue s ∧ AtEL3 s ∧ NoEvent s ∧
      pcAligned s.pc = true ∧ s.regimeEnabled = true ∧
      (slice s.tcrEL3 0 6).toNat < (if (effective s.cfg s.tcrEL3).ds = true then 12 else 16) ∧
      (s.seenEffective 0).t0sz.toNat < (if (s.seenEffective 0).ds = true then 12 else 16)) := by decide

/-- SH0 = 0b01 (V20); PS = 0b111 without FEAT_D128 (V2) and 0b110 where it is not implemented; T0SZ one above its maximum, with
PS = 0b101, the largest value that always has a meaning, and with 0b111 under FEAT_D128. -/
theorem test_witness_TranslationRefusals :
    (t0szMin (effective testCfgFull 0x80801520) ≤ (effective testCfgFull 0x80801520).t0sz.toNat ∧
      (effective testCfgFull 0x80801520).sh0 = 0b01) ∧
    (∀ raw ∈ [(0x80873520 : Word), 0x80863520], t0szMin (effective Cfg.base raw) ≤ (effective Cfg.base raw).t0sz.toNat ∧
      (effective Cfg.base raw).sh0 ≠ 0b01 ∧
      (((effective Cfg.base raw).ps = 0b110 ∧ Cfg.base.ps52Implemented = false) ∨
        ((effective Cfg.base raw).ps = 0b111 ∧ Cfg.base.featD128 = false))) ∧
    ((effective Cfg.base 0x80853520).sh0 ≠ 0b01 ∧ (effective Cfg.base 0x80853520).ps = 0b101 ∧
      ({ Cfg.base with t0szMax := 31 } : Cfg).t0szMax < (effective Cfg.base 0x80853520).t0sz.toNat) ∧
    ((effective testCfgFull 0x80873520).sh0 ≠ 0b01 ∧ (effective testCfgFull 0x80873520).ps = 0b111 ∧
      testCfgFull.featD128 = true ∧
      ({ testCfgFull with t0szMax := 31 } : Cfg).t0szMax < (effective testCfgFull 0x80873520).t0sz.toNat) := by
  refine ⟨by decide, ?_, by decide, by decide⟩
  intro raw h
  simp only [List.mem_cons, List.not_mem_nil, or_false] at h
  rcases h with rfl | rfl <;> decide

/-- V1 with DS = 0 and V6 with DS = 1, T0SZ at 32 and at 16. -/
theorem test_witness_WellProgrammedTcrTranslates :
    ((testRegime Cfg.base 0x80853520).regimeEnabled = true ∧ OneTcrValue (testRegime Cfg.base 0x80853520) ∧
      tcrWellProgrammed Cfg.base 0x80853520 ∧ (effective Cfg.base 0x80853520).ds = false) ∧
    (tcrWellProgrammed testCfgFull 0x180803510 ∧ (effective testCfgFull 0x180803510).ds = true) := by
  unfold tcrWellProgrammed
  decide

/-- With the regime disabled; and with it enabled, wherever the opaque walk maps the address. -/
theorem test_witness_WalkerWritesOnlyUnderItsControls :
    ((testStart Cfg.base).accessEL3 0 0x1000 .data =
      .next ((testStart Cfg.base).untranslatedAddress 0 0x1000 .data, testStart Cfg.base) ∧
      Memory.wf (testStart Cfg.base).mem = true) ∧
    (∀ pa u, translateEL3 Cfg.base ((testRegime Cfg.base 0x80853520).seenEffective 0) 0 [] 0x1000 .data 0 = .mapped pa u →
      (testRegime Cfg.base 0x80853520).accessEL3 0 0x1000 .data =
        .next (pa, (testRegime Cfg.base 0x80853520).withUpdates u)) := by
  refine ⟨⟨rfl, rfl⟩, fun pa u h => ?_⟩
  have h' : translateEL3 (testRegime Cfg.base 0x80853520).cfg ((testRegime Cfg.base 0x80853520).seenEffective 0)
      (testRegime Cfg.base 0x80853520).ttbr0EL3 (testRegime Cfg.base 0x80853520).mem 0x1000 .data 0 = .mapped pa u := h
  simp only [State.accessEL3, h']
  rfl

theorem test_witness_TopByteIgnoredWhereTbiApplies :
    tbiApplies Cfg.base (effective Cfg.base 0x100000) .instruction = true ∧
    tbiApplies testCfgFull (effective testCfgFull 0x20100000) .instruction = false ∧
    slice 0xFF00000000001000 0 56 = slice 0x1000 0 56 ∧ slice 0xFF00000000001000 56 8 ≠ slice 0x1000 56 8 := by decide

/-- R157: where TBI applies the walk is asked about the address without its top byte. -/
theorem test_walk_ignores_top_byte :
    (walkRequest Cfg.base (effective Cfg.base 0x100000) 0 [] 0xFF00000000001000 .data).va = 0x1000 ∧
    (walkRequest Cfg.base (effective Cfg.base 0) 0 [] 0xFF00000000001000 .data).va = 0xFF00000000001000 := by decide

/-- MTX = 1 with TCMA = 0, MTX = 1 with TCMA = 1, and MTX = 0, at tag 0 and at tag 0xF, with the regime disabled. -/
theorem test_witness_TagControlsOfAnAccess :
    ((effective testCfgFull 0x200000000).mtx = true ∧ (effective testCfgFull 0).mtx = false) ∧
    ((State.seenEffective { testStart testCfgFull with history := [0x200000000] } 0).mtx = true ∧
      (State.seenEffective { testStart testCfgFull with history := [0x200000000] } 0).tcma = false) ∧
    ((State.seenEffective { testStart testCfgFull with history := [0x240000000] } 0).mtx = true ∧
      (State.seenEffective { testStart testCfgFull with history := [0x240000000] } 0).tcma = true) ∧
    (State.seenEffective { testStart testCfgFull with history := [0] } 0).mtx = false ∧
    slice 0x1000 56 4 = 0b0000 ∧ slice 0x0F00000000001000 56 4 ≠ 0b0000 ∧ (testStart testCfgFull).regimeEnabled = false :=
  ⟨by decide, by decide, by decide, by decide, by decide, by decide, rfl⟩

/-- R43, R158: an Unchecked data access under MTX with the regime disabled keeps its address; with a tag in [59:56], the
address the check is given has zeros there. -/
theorem test_mtx_without_translation :
    State.accessEL3 { testStart testCfgFull with history := [0x240000000] } 0 0x1000 .data =
      .next (0x1000, { testStart testCfgFull with history := [0x240000000] }) ∧
    State.untranslatedAddress { testStart testCfgFull with history := [0x200000000] } 0 0x0F00000000001000 .data = 0x1000 ∧
    State.untranslatedAddress { testStart testCfgFull with history := [0x200000000] } 0 0x0F00000000001000 .instruction =
      0x0F00000000001000 := ⟨rfl, by decide, by decide⟩

theorem test_witness_TlbiRangeArgumentUnderDS :
    ((effective testCfgFull 0x100000000).ds = true ∧ (effective testCfgFull 0x100000000).tg0 = .kb4) ∧
    ((effective testCfgFull 0x100008000).ds = true ∧ (effective testCfgFull 0x100008000).tg0 = .kb16) := by decide

/-- 4KB with DS = 1, T0SZ at 12 and 15, both ends of its range; 16KB, T0SZ at 16, its minimum with DS = 0 and the largest value
of the second Note, and at 12 with DS = 1. -/
theorem test_witness_InitialLevelAndRegionSize : testCfgFull.featLpa2 = true ∧
    (∀ n ∈ [(12 : BitVec 6), 15], t0szMin { effective testCfgFull 0x100000000 with t0sz := n } ≤ n.toNat ∧
      (effective testCfgFull 0x100000000).tg0 = .kb4 ∧ n.toNat < 16) ∧
    (∀ n ∈ [(12 : BitVec 6), 16], t0szMin { effective testCfgFull 0x100008000 with t0sz := n } ≤ n.toNat ∧
      (effective testCfgFull 0x100008000).tg0 = .kb16 ∧ n.toNat < 17) ∧
    (t0szMin (effective testCfgFull 0x8010) = 16 ∧ (effective testCfgFull 0x8010).tg0 = .kb16) ∧
    (∃ l, initialLevel testCfgFull (effective testCfgFull 0x10000000F) = some l) ∧
    initialLevel testCfgFull (effective testCfgFull 0x8010) = some 0 :=
  ⟨rfl, by decide, by decide, by decide, ⟨-1, by decide⟩, by decide⟩

theorem test_witness_DescriptorBitsUnderHpdDsPnch :
    ((effective testCfgFull 0x501000000).hpd = true ∧ (effective testCfgFull 0x501000000).ds = true ∧
      (effective testCfgFull 0x501000000).pnCH = true) ∧
    ((effective testCfgFull 0).hpd = false ∧ (effective testCfgFull 0).ds = false ∧
      (effective testCfgFull 0).pnCH = false) := by decide

/-- The instruction placed where the fetch reads, from reset. -/
theorem test_witness_StepRunsTheFetchedInstruction :
    NoEvent (State.reset.withFetchWord 32 0xD51E2041) ∧ (State.reset.withFetchWord 32 0xD51E2041).pstate.nRW = false ∧
    pcAligned (State.reset.withFetchWord 32 0xD51E2041).pc = true ∧
    (State.reset.withFetchWord 32 0xD51E2041).regimeEnabled = false ∧ WellFormed (.msrTcrEL3 1) ∧
    Memory.readBytes (State.reset.withFetchWord 32 0xD51E2041).mem
      (State.reset.withFetchWord 32 0xD51E2041).plainFetchAddress 4 = .ok (encodeBytes (.msrTcrEL3 1)) :=
  ⟨rfl, rfl, by decide, rfl, by decide, rfl⟩

theorem test_witness_StepRunsWhatItsFetchReads : NoEvent (State.reset.withFetchWord 32 0xD53E2040) ∧
    (∃ bs s₁, (State.reset.withFetchWord 32 0xD53E2040).fetch = .next (bs, s₁) ∧ decode bs = .ok (.mrsTcrEL3 0, [])) :=
  ⟨rfl, [0x40, 0x20, 0x3E, 0xD5], _, rfl, by decide⟩

/-- One step from reset: `MSR TCR_EL3, X1` with x[1] = 0x80853520 (P1's value), placed where the fetch reads. -/
def testProgram (w : Nat) : State :=
  { State.reset.withFetchWord 32 w with x := (Vector.replicate 31 0).set 1 0x80853520 }

theorem test_step_msr_tcr : testAfter (step (testProgram 0xD51E2041))
    (fun s => s.tcrEL3 == 0x80853520 && s.pc == 4) = true := by decide

theorem test_witness_StepKeepsInvariant : (testProgram 0xD51E2041).Inv ∧ (∃ s', step (testProgram 0xD51E2041) = .next s') :=
  ⟨⟨by decide, by decide, by decide, by decide, by decide⟩, _, rfl⟩

theorem test_witness_StepKeepsConfiguration : ∃ s', step (testProgram 0xD53E4002) = .next s' := ⟨_, rfl⟩

theorem test_witness_OnlyMsrAndResetWriteTcr :
    ∃ s', step (testProgram 0xD51E2041) = .next s' ∧ s'.tcrEL3 ≠ (testProgram 0xD51E2041).tcrEL3 := ⟨_, rfl, by decide⟩

theorem test_witness_OnlyFourThingsWriteSpsr :
    ∃ s', step (testProgram 0xD51E4001) = .next s' ∧ s'.spsrEL3 ≠ (testProgram 0xD51E4001).spsrEL3 := ⟨_, rfl, by decide⟩

theorem test_witness_NoInstructionCompletesBelowEL3 :
    NoEvent (testAt Cfg.base .el0) ∧ (testAt Cfg.base .el0).pstate.el ≠ .el3 := by decide

theorem test_witness_LevelChangesOnlyByEntryReturnOrReset :
    ∃ s', step { testAt Cfg.base .el1 with events := [.exceptionToEL3 .serror 0] } = .next s' ∧
      s'.pstate.el ≠ (testAt Cfg.base .el1).pstate.el := ⟨_, rfl, by decide⟩

theorem test_witness_HistoryOnlyGrows :
    ∃ s', step (testProgram 0xD51E2041) = .next s' ∧ ∀ rest, (testProgram 0xD51E2041).events ≠ .warmReset :: rest :=
  ⟨_, rfl, fun _ h => nomatch h⟩

theorem test_witness_StepKeepsMemoryWithRegimeDisabled :
    ∃ s', step (testProgram 0xD51E2041) = .next s' ∧ (testProgram 0xD51E2041).regimeEnabled = false := ⟨_, rfl, rfl⟩

theorem test_witness_WarmResetRestartsTheMachine :
    ({ testStart Cfg.base with events := [.warmReset] } : State).events = .warmReset :: [] := rfl
end

/-! PROOFS of the statements on the configuration and on reserved bits (R5, R12, R31, R32, R93, R114). -/

namespace Sys2Proof.Machine

/-! ## The configuration is constant (R5) -/

/-- R5 for the four instructions. -/
theorem exec_keeps_cfg {i : Instr} {s s' : State} (h : exec i s = .next s') : s'.cfg = s.cfg := by
  obtain ⟨-, hcase⟩ := exec_next h
  rcases hcase with ⟨t, -, rfl⟩ | ⟨t, -, -, rfl⟩ | ⟨t, -, -, -, rfl⟩ | ⟨t, -, rfl⟩ | ⟨t, -, rfl⟩ <;> simp

/-- R5 for the events of the environment, the Warm reset among them. -/
theorem handleEvent_keeps_cfg {e : Event} {s s' : State} (h : s.handleEvent e = .next s') : s'.cfg = s.cfg := by
  rcases handleEvent_next h with ⟨-, rfl⟩ | ⟨-, -, -, rfl⟩ | ⟨k, y, -, -, -, rfl⟩ | ⟨va, acc, pa, s₁, -, -, ha, rfl⟩
  · exact State.warmReset_cfg s
  · exact State.returnedFromEL3_cfg s
  · exact State.takeExceptionToEL3_cfg s k y
  · obtain ⟨u, rfl⟩ := accessEL3_updates ha
    exact State.withUpdates_cfg s u

/-- R5 for the fetch: the walker writes memory alone. -/
theorem fetch_keeps_cfg {s s' : State} {bs : List Byte} (h : s.fetch = .next (bs, s')) : s'.cfg = s.cfg := by
  obtain ⟨u, rfl⟩ := fetch_updates h
  exact State.withUpdates_cfg s u

/-- Settles O53: a step is an event, or a fetch and the instruction it reads, and each of the three keeps the
configuration. -/
theorem stepKeepsConfiguration : Obligations.StepKeepsConfiguration := by
  intro s s' h
  rcases step_next h with ⟨e, rest, -, he⟩ | ⟨-, bs, s₁, i, rest, hf, -, hx⟩
  · exact (handleEvent_keeps_cfg he :)
  · exact (exec_keeps_cfg hx).trans (fetch_keeps_cfg hf)

/-! ## The reserved bits of the two registers, and what is read back of them (R12) -/

/-- The bits of a mask as the interval of its field. -/
theorem bit_fieldMask_of_le {hi lo b : Nat} (hb : b < 64) (h : lo ≤ hi) :
    bit (fieldMask hi lo) b = (decide (lo ≤ b) && decide (b ≤ hi)) := by
  rw [bit_fieldMask, Bool.eq_iff_iff]
  simp only [Bool.and_eq_true, decide_eq_true_eq]
  omega

/-- The mask of a one-bit field is that bit. -/
theorem bit_fieldMask_self {n b : Nat} (hb : b < 64) : bit (fieldMask n n) b = decide (b = n) := by
  rw [bit_fieldMask_of_le hb le_rfl, Bool.eq_iff_iff]
  simp only [Bool.and_eq_true, decide_eq_true_eq]
  omega

/-- R12, one bit: a reserved bit reads as stored or as its reserved value, a live bit as written. -/
theorem bit_readBack (raw res0 res1 stored : Word) {b : Nat} (hb : b < 64) :
    bit (readBack raw res0 res1 stored) b =
      (if bit (res0 ||| res1) b = true then (if bit stored b = true then bit raw b else bit res1 b) else bit raw b) := by
  simp only [readBack, bit_or, bit_and, bit_not, hb, decide_true, Bool.true_and]
  cases bit res0 b <;> cases bit res1 b <;> cases bit stored b <;> simp

/-- D128 takes effect only under its feature (R38), so a condition on both is one on Eff.D128. -/
theorem featD128_and_effD128 (c : Cfg) (raw : Word) : (c.featD128 && effD128 c raw) = effD128 c raw := by
  simp [effD128]

/-- The reserved masks of TCR_EL3 are the layout table R30, compared position by position. -/
theorem bit_tcrReserved (c : Cfg) (raw : Word) {b : Nat} (hb : b < 64) :
    bit (tcrRes0 c raw ||| tcrRes1 c raw) b = tcrReservedNow c raw b := by
  simp only [tcrRes0, tcrRes1, bit_or, bit_maskWhen, bit_fieldMask_self hb, bit_fieldMask_of_le hb, Nat.reduceLeDiff,
    tcrReservedNow, mtxLive, dsLive, featD128_and_effD128]
  by_cases h44 : 44 ≤ b
  · simp [h44, Nat.le_of_lt_succ hb]
  · interval_cases b <;> grind

/-- The layout SPSR_EL3 is read under, in the words of the tables. -/
theorem spsrReadsAArch32_iff {c : Cfg} {raw : Word} :
    spsrReadsAArch32 c raw = true ↔ c.aarch32Supported = true ∧ bit raw 4 = true := by
  simp [spsrReadsAArch32, spsrIsAArch32]

/-- The reserved masks of SPSR_EL3 are the layout tables R93 and R114, compared position by position. -/
theorem bit_spsrReserved (c : Cfg) (raw : Word) {b : Nat} (hb : b < 64) :
    bit (spsrRes0 c raw ||| spsrRes1 c raw) b = spsrReservedNow c raw b := by
  by_cases hlayout : spsrReadsAArch32 c raw = true
  · simp only [spsrRes0, spsrRes1, spsrReservedNow, hlayout, spsrReadsAArch32_iff.mp hlayout, and_self, if_true,
      spsrRes0AArch32, spsrRes1AArch32, bit_or, bit_maskWhen, bit_fieldMask_self hb, bit_fieldMask_of_le hb,
      Nat.reduceLeDiff, anyEL]
    by_cases h32 : 32 ≤ b
    · simp [h32, Nat.le_of_lt_succ hb]
    · interval_cases b <;> grind
  · simp only [spsrRes0, spsrRes1, spsrReservedNow, hlayout, mt spsrReadsAArch32_iff.mpr hlayout, if_false,
      Bool.false_eq_true, spsrRes0AArch64, bit_or, bit_zero, BitVec.ofNat_eq_ofNat, bit_maskWhen,
      bit_fieldMask_self hb, bit_fieldMask_of_le hb, Nat.reduceLeDiff, tcoLive]
    by_cases h35 : 35 ≤ b
    · simp [h35, Nat.le_of_lt_succ hb]
    · interval_cases b <;> grind

/-- The one bit of SPSR_EL3 that can be RES1 is E of the AArch32 layout (R107). -/
theorem bit_spsrRes1 (c : Cfg) (raw : Word) {b : Nat} (hb : b < 64) :
    bit (spsrRes1 c raw) b = spsrReservedAsOne c raw b := by
  by_cases hlayout : spsrReadsAArch32 c raw = true
  · obtain ⟨h32, h4⟩ := spsrReadsAArch32_iff.mp hlayout
    simp only [spsrRes1, spsrRes1AArch32, spsrReservedAsOne, hlayout, h32, h4, if_true, bit_maskWhen,
      bit_fieldMask_self hb, anyEL, Bool.true_and]
    ac_rfl
  · have hne : (c.aarch32Supported && bit raw 4) = false := by
      simpa [spsrReadsAArch32_iff] using hlayout
    simp [spsrRes1, spsrReservedAsOne, hlayout, hne]

/-! ## SPSR_EL3: the read view (R12, R90) -/

/-- The read view of SPSR_EL3, one bit, by the tables. -/
theorem bit_spsrReadView (c : Cfg) (raw : Word) {b : Nat} (hb : b < 64) :
    bit (spsrReadView c raw) b =
      (if spsrReservedNow c raw b = true then
         (if bit c.resStoredSpsr b = true then bit raw b else spsrReservedAsOne c raw b)
       else bit raw b) := by
  rw [spsrReadView, bit_readBack _ _ _ _ hb, bit_spsrReserved c raw hb, bit_spsrRes1 c raw hb]

/-- An entry from AArch64 state saves 0 in M[4] (R139). -/
theorem spsrOfAArch64_bit_four (c : Cfg) (p : PState) : bit (spsrOfAArch64 c p) 4 = false := by
  simp [spsrOfAArch64]

/-- D19: an entry from AArch64 state saves 0 in every reserved bit. -/
theorem spsrOfAArch64_reserved_bit (c : Cfg) (p : PState) {b : Nat} (hb : b < 64)
    (h : spsrReservedNow c (spsrOfAArch64 c p) b = true) : bit (spsrOfAArch64 c p) b = false := by
  simp only [spsrReservedNow, spsrOfAArch64_bit_four, Bool.false_eq_true, and_false, if_false] at h
  simp only [spsrOfAArch64, bit_or, bit_placeBit, bit_placeField, tcoLive, hb]
  by_cases h35 : 35 ≤ b
  · have hne : ∀ n < 35, b ≠ n := fun n hn => by omega
    simp [hne, BitVec.getLsbD_of_ge _ (b - 10) (show 2 ≤ b - 10 by omega),
      BitVec.getLsbD_of_ge _ (b - 2) (show 2 ≤ b - 2 by omega)]
  · interval_cases b <;> grind

/-- So an entry from AArch64 state saves a value that reads back as itself, whether reserved bits are stored or not. -/
theorem spsrReadView_spsrOfAArch64 (c : Cfg) (p : PState) :
    spsrReadView c (spsrOfAArch64 c p) = spsrOfAArch64 c p := by
  refine eq_of_bits fun b hb => ?_
  rw [bit_spsrReadView c _ hb]
  have hone : spsrReservedAsOne c (spsrOfAArch64 c p) b = false := by
    simp [spsrReservedAsOne, spsrOfAArch64_bit_four]
  split
  · rename_i hres
    simp [spsrOfAArch64_reserved_bit c p hb hres, hone]
  · rfl

/-- Settles O34: each bit by the tables, and the value saved by an entry from AArch64 state as the case whose reserved bits
are 0 already. -/
theorem spsrReadViewBitByBit : Obligations.SpsrReadViewBitByBit := by
  refine ⟨fun c raw b hb => bit_spsrReadView c raw hb, fun c p hp => ?_⟩
  have hsaved : savedPState c p = spsrOfAArch64 c p := by simp [savedPState, hp]
  rw [hsaved, spsrReadView_spsrOfAArch64]

/-! ## TCR_EL3: the Effective values depend on the live bits alone (R12, R31) -/

/-- Two raw values that differ at most in bits reserved under the first. -/
def AgreeOnLiveBits (c : Cfg) (raw raw' : Word) : Prop :=
  ∀ b < 64, tcrReservedNow c raw b = false → bit raw' b = bit raw b

/-- Flipping reserved bits leaves the live ones. -/
theorem agreeOnLiveBits_flip (c : Cfg) (raw v : Word) :
    AgreeOnLiveBits c raw (raw ^^^ (v &&& (tcrRes0 c raw ||| tcrRes1 c raw))) := by
  intro b hb hlive
  rw [bit_xor, bit_and, bit_tcrReserved c raw hb, hlive, Bool.and_false, Bool.xor_false]

/-- The bits of the fields without a condition (T0SZ, IRGN0, ORGN0, SH0, TG0, PS, TBI) are never reserved. -/
theorem tcrReservedNow_unconditional (c : Cfg) (raw : Word) {b : Nat} (h : b < 6 ∨ 8 ≤ b ∧ b < 19 ∨ b = 20) :
    tcrReservedNow c raw b = false := by
  rcases h with h6 | ⟨h8, h19⟩ | rfl
  · interval_cases b <;> rfl
  · interval_cases b <;> rfl
  · rfl

section
variable {c : Cfg} {raw raw' : Word}

/-- A bit that is live where its field's condition holds contributes the same to the Effective value. -/
theorem AgreeOnLiveBits.and_bit (h : AgreeOnLiveBits c raw raw') {cond : Bool} {b : Nat} (hb : b < 64)
    (hlive : cond = true → tcrReservedNow c raw b = false) : (cond && bit raw' b) = (cond && bit raw b) := by
  cases cond with
  | false => rfl
  | true => rw [h b hb (hlive rfl)]

/-- A field whose bit R30 reserves exactly where the field's condition fails. -/
theorem AgreeOnLiveBits.and_bit_of_table (h : AgreeOnLiveBits c raw raw') {cond : Bool} {b : Nat} (hb : b < 64)
    (htable : tcrReservedNow c raw b = !cond) : (cond && bit raw' b) = (cond && bit raw b) :=
  h.and_bit hb fun hc => by rw [htable, hc, Bool.not_true]

/-- A field without a condition. -/
theorem AgreeOnLiveBits.slice_eq (h : AgreeOnLiveBits c raw raw') {lo width : Nat}
    (hlive : lo + width ≤ 6 ∨ 8 ≤ lo ∧ lo + width ≤ 19) : slice raw' lo width = slice raw lo width :=
  slice_congr fun k hk => h (lo + k) (by omega) (tcrReservedNow_unconditional c raw (by omega))

/-! The values that the conditions of other fields name come first: D128, TG0 and HPD. -/

theorem AgreeOnLiveBits.effD128_eq (h : AgreeOnLiveBits c raw raw') : effD128 c raw' = effD128 c raw :=
  h.and_bit_of_table (by decide) rfl

theorem AgreeOnLiveBits.effTG0_eq (h : AgreeOnLiveBits c raw raw') : effTG0 c raw' = effTG0 c raw := by
  rw [effTG0, h.slice_eq (by decide), effTG0]

theorem AgreeOnLiveBits.effHPD_eq (h : AgreeOnLiveBits c raw raw') : effHPD c raw' = effHPD c raw :=
  h.and_bit_of_table (by decide) rfl

theorem AgreeOnLiveBits.effDisCH0_eq (h : AgreeOnLiveBits c raw raw') : effDisCH0 c raw' = effDisCH0 c raw := by
  rw [effDisCH0, h.effD128_eq]
  exact h.and_bit_of_table (by decide) rfl

theorem AgreeOnLiveBits.effDS_eq (h : AgreeOnLiveBits c raw raw') : effDS c raw' = effDS c raw := by
  have hlive : dsLive c raw' = dsLive c raw := by rw [dsLive, h.effD128_eq, h.effTG0_eq, dsLive]
  rw [effDS, hlive]
  exact h.and_bit_of_table (by decide) rfl

/-- R36: where PTTWI is a read-only 0 its bit is live and has no say. -/
theorem AgreeOnLiveBits.effPTTWI_eq (h : AgreeOnLiveBits c raw raw') : effPTTWI c raw' = effPTTWI c raw := by
  refine h.and_bit (by decide) fun hc => ?_
  obtain ⟨hthe, -⟩ := Bool.and_eq_true_iff.mp hc
  simp [tcrReservedNow, hthe]

/-- R48 to R51: an HWU bit is live under FEAT_HPDS2, and has a say only under HPD. -/
theorem AgreeOnLiveBits.effHWU_eq (h : AgreeOnLiveBits c raw raw') {n : Nat} (h25 : 25 ≤ n) (h28 : n ≤ 28) :
    effHWU c raw' n = effHWU c raw n := by
  rw [effHWU, h.effHPD_eq]
  refine h.and_bit (by omega) fun hc => ?_
  obtain ⟨hhpds2, -⟩ := Bool.and_eq_true_iff.mp hc
  interval_cases n <;> simp [tcrReservedNow, hhpds2]

/-- R41, R42: PIE and PnCH are 1 under Eff.D128 = 1, where their bit is RES1, and are their bit otherwise. -/
theorem AgreeOnLiveBits.and_res1_bit (h : AgreeOnLiveBits c raw raw') {feat : Bool} {b : Nat} (hb : b < 64)
    (htable : tcrReservedNow c raw b = (!feat || effD128 c raw)) :
    (feat && (effD128 c raw' || bit raw' b)) = (feat && (effD128 c raw || bit raw b)) := by
  rw [h.effD128_eq]
  cases hd : effD128 c raw with
  | true => rfl
  | false => exact h.and_bit_of_table hb (by rw [htable, hd, Bool.or_false])

/-- R31: all 26 Effective values are functions of the live bits. -/
theorem AgreeOnLiveBits.effective_eq (h : AgreeOnLiveBits c raw raw') : effective c raw' = effective c raw := by
  have haft : effHAFT c raw' = effHAFT c raw := h.and_bit_of_table (by decide) rfl
  have aie : effAIE c raw' = effAIE c raw := h.and_bit_of_table (by decide) rfl
  have poe : effPOE c raw' = effPOE c raw := h.and_bit_of_table (by decide) rfl
  have pie : effPIE c raw' = effPIE c raw := h.and_res1_bit (by decide) rfl
  have pnCH : effPnCH c raw' = effPnCH c raw := h.and_res1_bit (by decide) rfl
  have mtx : effMTX c raw' = effMTX c raw := h.and_bit_of_table (by decide) rfl
  have tcma : effTCMA c raw' = effTCMA c raw := h.and_bit_of_table (by decide) rfl
  have tbid : effTBID c raw' = effTBID c raw := h.and_bit_of_table (by decide) rfl
  have hd : effHD c raw' = effHD c raw := h.and_bit_of_table (by decide) rfl
  have ha : effHA c raw' = effHA c raw := h.and_bit_of_table (by decide) rfl
  have tbi : bit raw' 20 = bit raw 20 := h 20 (by decide) rfl
  have ps : slice raw' 16 3 = slice raw 16 3 := h.slice_eq (by decide)
  have sh0 : slice raw' 12 2 = slice raw 12 2 := h.slice_eq (by decide)
  have orgn0 : slice raw' 10 2 = slice raw 10 2 := h.slice_eq (by decide)
  have irgn0 : slice raw' 8 2 = slice raw 8 2 := h.slice_eq (by decide)
  have t0sz : slice raw' 0 6 = slice raw 0 6 := h.slice_eq (by decide)
  simp only [effective, h.effDisCH0_eq, haft, h.effPTTWI_eq, h.effD128_eq, aie, poe, pie, pnCH, mtx, h.effDS_eq, tcma,
    tbid, h.effHWU_eq, Nat.reduceLeDiff, h.effHPD_eq, hd, ha, tbi, ps, h.effTG0_eq, sh0, orgn0, irgn0, t0sz]

end

/-- Settles O20: flipping reserved bits leaves the live ones, and the Effective values are functions of those. -/
theorem reservedBitsNeverChangeEffective : Obligations.ReservedBitsNeverChangeEffective :=
  fun c raw v => (agreeOnLiveBits_flip c raw v).effective_eq

end Sys2Proof.Machine

/-! PROOFS of the statements on who writes the two registers (R31, R90), on what an instruction leaves in the pc and takes
from register 31 (R22, R23), and on what TCR_EL3 means and reads back (R32 to R64, R80, R150 to R161). -/

namespace Sys2Proof.Machine

/-! ## Who writes the two registers (R31, R90) -/

/-- R31 for the events of the environment. -/
theorem handleEvent_tcrEL3 {e : Event} {s s' : State} (h : s.handleEvent e = .next s') :
    e = .warmReset ∨ s'.tcrEL3 = s.tcrEL3 := by
  rcases handleEvent_next h with ⟨he, -⟩ | ⟨-, -, -, rfl⟩ | ⟨k, y, -, -, -, rfl⟩ | ⟨va, acc, pa, s₁, -, -, ha, rfl⟩
  · exact .inl he
  · exact .inr (State.returnedFromEL3_tcrEL3 s)
  · exact .inr (State.takeExceptionToEL3_tcrEL3 s k y)
  · obtain ⟨u, rfl⟩ := accessEL3_updates ha
    exact .inr (State.withUpdates_tcrEL3 s u)

/-- R31 for the four instructions: a trapped MSR TCR_EL3 leaves the register alone. -/
theorem exec_tcrEL3 {i : Instr} {s s' : State} (h : exec i s = .next s') :
    (∃ t, i = .msrTcrEL3 t ∧ s.tcrWriteTraps = false ∧ s'.tcrEL3 = s.readX t) ∨ s'.tcrEL3 = s.tcrEL3 := by
  obtain ⟨-, hcase⟩ := exec_next h
  rcases hcase with ⟨t, -, rfl⟩ | ⟨t, hi, ht, rfl⟩ | ⟨t, -, -, -, rfl⟩ | ⟨t, -, rfl⟩ | ⟨t, -, rfl⟩
  · exact .inr (by simp)
  · exact .inl ⟨t, hi, ht, by simp⟩
  · exact .inr (by simp)
  · exact .inr (by simp)
  · exact .inr (by simp)

/-- R90 for the events of the environment: an entry saves PSTATE. -/
theorem handleEvent_spsrEL3 {e : Event} {s s' : State} (h : s.handleEvent e = .next s') :
    e = .warmReset ∨ e = .exceptionReturn ∨
    (∃ k y, e = .exceptionToEL3 k y ∧ s'.spsrEL3 = savedPState s.cfg s.pstate) ∨ s'.spsrEL3 = s.spsrEL3 := by
  rcases handleEvent_next h with ⟨he, -⟩ | ⟨he, -⟩ | ⟨k, y, he, -, -, rfl⟩ | ⟨va, acc, pa, s₁, -, -, ha, rfl⟩
  · exact .inl he
  · exact .inr (.inl he)
  · exact .inr (.inr (.inl ⟨k, y, he, State.takeExceptionToEL3_spsrEL3 s k y⟩))
  · obtain ⟨u, rfl⟩ := accessEL3_updates ha
    exact .inr (.inr (.inr (State.withUpdates_spsrEL3 s u)))

/-- R90 for the four instructions: an MSR of the register stores its operand, a trapped MSR TCR_EL3 saves PSTATE. -/
theorem exec_spsrEL3 {i : Instr} {s s' : State} (h : exec i s = .next s') :
    (∃ t, i = .msrSpsrEL3 t ∧ s'.spsrEL3 = s.readX t) ∨
    (∃ t, i = .msrTcrEL3 t ∧ s.tcrWriteTraps = true ∧ s'.spsrEL3 = savedPState s.cfg s.pstate) ∨
    s'.spsrEL3 = s.spsrEL3 := by
  obtain ⟨-, hcase⟩ := exec_next h
  rcases hcase with ⟨t, -, rfl⟩ | ⟨t, -, -, rfl⟩ | ⟨t, hi, ht, -, rfl⟩ | ⟨t, -, rfl⟩ | ⟨t, hi, rfl⟩
  · exact .inr (.inr (by simp))
  · exact .inr (.inr (by simp))
  · exact .inr (.inl ⟨t, hi, ht, by simp⟩)
  · exact .inr (.inr (by simp))
  · exact .inl ⟨t, hi, by simp⟩

/-- The walker's writes touch no general register. -/
@[simp] theorem State.withUpdates_readX (s : State) (u : List (Word × Byte)) (t : Nat) :
    (s.withUpdates u).readX t = s.readX t := rfl

/-- The walker's writes neither set nor clear the trap. -/
@[simp] theorem State.withUpdates_tcrWriteTraps (s : State) (u : List (Word × Byte)) :
    (s.withUpdates u).tcrWriteTraps = s.tcrWriteTraps := rfl

/-- The walker's writes do not move the PE. -/
theorem State.withUpdates_atEL3 {s : State} {u : List (Word × Byte)} : AtEL3 (s.withUpdates u) ↔ AtEL3 s := Iff.rfl

/-- Settles O54: an event that writes TCR_EL3 is a Warm reset, and an instruction that writes it is an untrapped MSR TCR_EL3
at EL3; its fetch has changed memory alone. -/
theorem onlyMsrAndResetWriteTcr : Obligations.OnlyMsrAndResetWriteTcr := by
  intro s s' h hne
  rcases step_next h with ⟨e, rest, hev, he⟩ | ⟨hev, bs, s₁, i, rest, hf, hd, hx⟩
  · rcases handleEvent_tcrEL3 he with rfl | hsame
    · exact .inl ⟨rest, hev⟩
    · exact absurd hsame hne
  · obtain ⟨hat, -⟩ := exec_next hx
    obtain ⟨u, rfl⟩ := fetch_updates hf
    rcases exec_tcrEL3 hx with ⟨t, rfl, ht, hv⟩ | hsame
    · simp only [State.withUpdates_tcrWriteTraps, State.withUpdates_readX] at ht hv
      exact .inr ⟨hev, State.withUpdates_atEL3.mp hat, ht, bs, _, rest, t, hf, hd, hv⟩
    · exact absurd hsame hne

/-- Settles O55: the events that write SPSR_EL3 are three, and the instructions two, of which a trapped MSR TCR_EL3 is an
entry; the fetch has changed memory alone. -/
theorem onlyFourThingsWriteSpsr : Obligations.OnlyFourThingsWriteSpsr := by
  intro s s' h hne
  rcases step_next h with ⟨e, rest, hev, he⟩ | ⟨hev, bs, s₁, i, rest, hf, hd, hx⟩
  · rcases handleEvent_spsrEL3 he with rfl | rfl | ⟨k, y, rfl, hv⟩ | hsame
    · exact .inl ⟨rest, hev⟩
    · exact .inr (.inl ⟨rest, hev⟩)
    · exact .inr (.inr (.inl ⟨⟨k, y, rest, hev⟩, hv⟩))
    · exact absurd hsame hne
  · obtain ⟨hat, -⟩ := exec_next hx
    obtain ⟨u, rfl⟩ := fetch_updates hf
    refine .inr (.inr (.inr ⟨hev, State.withUpdates_atEL3.mp hat, bs, s.withUpdates u, rest, ?_⟩))
    rcases exec_spsrEL3 hx with ⟨t, rfl, hv⟩ | ⟨t, rfl, ht, hv⟩ | hsame
    · exact ⟨t, hf, .inl ⟨hd, by simpa using hv⟩⟩
    · exact ⟨t, hf, .inr ⟨hd, by simpa using ht, by simpa using hv⟩⟩
    · exact absurd hsame hne

/-! ## The pc and the zero register (R22, R23) -/

/-- Settles O11: four of the five things an instruction can do end in `State.complete`, and the fifth is the trap. -/
theorem completedInstructionAdvancesPcByFour : Obligations.CompletedInstructionAdvancesPcByFour := by
  intro i s s' h huntrapped
  obtain ⟨-, hcase⟩ := exec_next h
  rcases hcase with ⟨t, -, rfl⟩ | ⟨t, -, -, rfl⟩ | ⟨t, hi, ht, -⟩ | ⟨t, -, rfl⟩ | ⟨t, -, rfl⟩
  · simp
  · simp
  · exact absurd hi (huntrapped ht t)
  · simp
  · simp

section
variable {s : State}

/-- R200 at EL3. -/
theorem exec_mrsTcrEL3_of_atEL3 (h : AtEL3 s) (t : Nat) :
    exec (.mrsTcrEL3 t) s = .next (s.writeX t (tcrReadView s.cfg s.tcrEL3)).complete := by
  simp only [exec, execMrsTcrEL3, accessVerdict_permitted.mpr h]

/-- R201 at EL3 with no trap set. -/
theorem exec_msrTcrEL3_of_atEL3 (h : AtEL3 s) (ht : s.tcrWriteTraps = false) (t : Nat) :
    exec (.msrTcrEL3 t) s = .next (s.writeTcr (s.readX t)).complete := by
  simp only [exec, execMsrTcrEL3, accessVerdict_permitted.mpr h, ht, Bool.false_eq_true, if_false]

/-- R202 at EL3. -/
theorem exec_mrsSpsrEL3_of_atEL3 (h : AtEL3 s) (t : Nat) :
    exec (.mrsSpsrEL3 t) s = .next (s.writeX t (spsrReadView s.cfg s.spsrEL3)).complete := by
  simp only [exec, execMrsSpsrEL3, accessVerdict_permitted.mpr h]

/-- R203 at EL3 (D7: no trap applies). -/
theorem exec_msrSpsrEL3_of_atEL3 (h : AtEL3 s) (t : Nat) :
    exec (.msrSpsrEL3 t) s = .next (s.writeSpsr (s.readX t)).complete := by
  simp only [exec, execMsrSpsrEL3, accessVerdict_permitted.mpr h]

end

/-- Settles O10: each of the four completes at EL3, where a write of register 31 is discarded and a read of it is 0. -/
theorem zeroRegisterDiscardsAndReadsZero : Obligations.ZeroRegisterDiscardsAndReadsZero := by
  intro s h
  have hread : s.readX 31 = 0 := s.readX_of_ge le_rfl
  refine ⟨⟨_, exec_mrsTcrEL3_of_atEL3 h 31, ?_⟩, ⟨_, exec_mrsSpsrEL3_of_atEL3 h 31, ?_⟩,
    fun ht => ⟨_, exec_msrTcrEL3_of_atEL3 h ht 31, hread⟩, ⟨_, exec_msrSpsrEL3_of_atEL3 h 31, hread⟩⟩
  · rw [s.writeX_of_ge _ le_rfl]
    rfl
  · rw [s.writeX_of_ge _ le_rfl]
    rfl

/-! ## TCR_EL3: the granule (R59) -/

/-- The value table of TG0, backwards. -/
@[simp] theorem decodeTG0_encodeTG0 (g : Granule) : decodeTG0 (encodeTG0 g) = some g := by
  cases g <;> rfl

/-- The four values of a 2-bit field. -/
theorem twoBit_cases (v : BitVec 2) : v = 0b00 ∨ v = 0b01 ∨ v = 0b10 ∨ v = 0b11 := by
  revert v
  decide

/-- A value of TG0 is a granule's, or the reserved one. -/
theorem tg0_cases (v : BitVec 2) : (∃ g, v = encodeTG0 g) ∨ v = 0b11 := by
  rcases twoBit_cases v with h | h | h | h
  · exact .inl ⟨.kb4, h⟩
  · exact .inl ⟨.kb64, h⟩
  · exact .inl ⟨.kb16, h⟩
  · exact .inr h

/-- The fallback of a sound configuration is implemented. -/
theorem implementsGranule_fallbackTG0 {c : Cfg} (hc : CfgSound c) (v : BitVec 2) :
    implementsGranule c (fallbackTG0 c v) = true := by
  obtain ⟨h00, h01, h10, h11, -⟩ := hc
  unfold fallbackTG0
  split
  · exact h00
  · split
    · exact h01
    · split
      · exact h10
      · exact h11

section
variable {c : Cfg} {raw : Word}

/-- A size programmed and implemented is chosen. -/
theorem effTG0_of_implemented {g : Granule} (hv : slice raw 14 2 = encodeTG0 g) (hg : implementsGranule c g = true) :
    effTG0 c raw = g := by
  simp only [effTG0, hv, decodeTG0_encodeTG0, hg, if_true]

/-- A size programmed and not implemented gives way to the fallback. -/
theorem effTG0_of_not_implemented {g : Granule} (hv : slice raw 14 2 = encodeTG0 g)
    (hg : implementsGranule c g = false) : effTG0 c raw = fallbackTG0 c (slice raw 14 2) := by
  simp only [effTG0, hv, decodeTG0_encodeTG0, hg, Bool.false_eq_true, if_false]

/-- The reserved value gives way to its fallback. -/
theorem effTG0_of_reserved (hv : slice raw 14 2 = 0b11) : effTG0 c raw = c.tg0Fallback.at11 := by
  simp only [effTG0, hv]
  rfl

/-- R151: on a sound configuration the granule in use is implemented. -/
theorem implementsGranule_effTG0 (hc : CfgSound c) (raw : Word) : implementsGranule c (effTG0 c raw) = true := by
  rcases tg0_cases (slice raw 14 2) with ⟨g, hv⟩ | hv
  · cases hg : implementsGranule c g with
    | true => rwa [effTG0_of_implemented hv hg]
    | false => rw [effTG0_of_not_implemented hv hg]; exact implementsGranule_fallbackTG0 hc _
  · obtain ⟨-, -, -, h11, -⟩ := hc
    rwa [effTG0_of_reserved hv]

end

/-! ## TCR_EL3: the read view (R32) -/

/-- The bits of TCR_EL3 that are RES1 now, in the words of R32. -/
theorem bit_tcrRes1 (c : Cfg) (raw : Word) {b : Nat} (hb : b < 64) :
    bit (tcrRes1 c raw) b = tcrReservedAsOne c raw b := by
  simp only [tcrRes1, tcrReservedAsOne, bit_or, bit_maskWhen, bit_fieldMask_self hb]
  ac_rfl

/-- R36: bit 41 reads 0 where PTTWI is a read-only 0, and no other bit is touched. -/
theorem bit_readBackPTTWI (c : Cfg) (v : Word) {b : Nat} (hb : b < 64) :
    bit (readBackPTTWI c v) b =
      (if b = 41 ∧ c.featThe = true ∧ c.pttwiFixed0 = true then false else bit v b) := by
  simp only [readBackPTTWI, bit_and, bit_not, bit_maskWhen, bit_fieldMask_self hb, hb, decide_true, Bool.true_and]
  split
  · rename_i h
    obtain ⟨rfl, hthe, hfixed⟩ := h
    simp [hthe, hfixed]
  · rename_i h
    have hmask : (c.featThe && c.pttwiFixed0 && decide (b = 41)) = false := by
      simpa [and_comm, and_assoc] using h
    rw [hmask, Bool.not_false, Bool.and_true]

/-- R59: bits 15 and 14 read as the granule in use where the implementation says so, and no other bit is touched. -/
theorem bit_readBackTG0 (c : Cfg) (raw v : Word) {b : Nat} (hb : b < 64) :
    bit (readBackTG0 c raw v) b =
      (if (b = 15 ∨ b = 14) ∧ c.tg0ReadbackProgrammed = false then (encodeTG0 (effTG0 c raw)).getLsbD (b - 14)
       else bit v b) := by
  unfold readBackTG0
  split
  · rename_i hprog
    simp [hprog]
  · rename_i hprog
    by_cases hfield : b = 15 ∨ b = 14
    · rcases hfield with rfl | rfl <;> simp [hprog]
    · have hout : (decide (14 ≤ b) && decide (b ≤ 15)) = false := by
        simp only [Bool.and_eq_false_iff, decide_eq_false_iff_not]
        omega
      have hplace : bit (placeField (encodeTG0 (effTG0 c raw)) 14) b = false := by
        rw [bit_placeField]
        by_cases hlow : b < 14
        · simp [hlow]
        · rw [BitVec.getLsbD_of_ge _ _ (by omega), Bool.and_false]
      rw [bit_or, bit_and, bit_not, bit_fieldMask_of_le hb (by decide), hout, hplace]
      simp [hfield, hb]

/-- R32, one bit of the read view of TCR_EL3. -/
theorem bit_tcrReadView (c : Cfg) (raw : Word) {b : Nat} (hb : b < 64) :
    bit (tcrReadView c raw) b =
      (if b = 41 ∧ c.featThe = true ∧ c.pttwiFixed0 = true then false
       else if (b = 15 ∨ b = 14) ∧ c.tg0ReadbackProgrammed = false then (encodeTG0 (effTG0 c raw)).getLsbD (b - 14)
       else if tcrReservedNow c raw b = true then
         (if bit c.resStoredTcr b = true then bit raw b else tcrReservedAsOne c raw b)
       else bit raw b) := by
  rw [tcrReadView, bit_readBackPTTWI c _ hb, bit_readBackTG0 c raw _ hb, bit_readBack _ _ _ _ hb,
    bit_tcrReserved c raw hb, bit_tcrRes1 c raw hb]

/-- A live bit outside TG0 and PTTWI reads back as written. -/
theorem bit_tcrReadView_of_live {c : Cfg} {raw : Word} {b : Nat} (hb : b < 64) (htg0 : ¬ (b = 15 ∨ b = 14))
    (hpttwi : b ≠ 41) (hlive : tcrReservedNow c raw b = false) : bit (tcrReadView c raw) b = bit raw b := by
  rw [bit_tcrReadView c raw hb, if_neg (fun h => hpttwi h.1), if_neg (fun h => htg0 h.1), hlive,
    if_neg Bool.false_ne_true]

/-- Settles O19: the three layers of the read view, each bit by bit. -/
theorem tcrReadViewBitByBit : Obligations.TcrReadViewBitByBit :=
  fun c raw _ hb => bit_tcrReadView c raw hb

/-- R59: what bits [15:14] read. -/
theorem slice_tcrReadView_tg0 (c : Cfg) (raw : Word) :
    slice (tcrReadView c raw) 14 2 =
      (if c.tg0ReadbackProgrammed = true then slice raw 14 2 else encodeTG0 (effTG0 c raw)) := by
  refine slice_eq_of_bits fun k hk => ?_
  have hlive : tcrReservedNow c raw (14 + k) = false := tcrReservedNow_unconditional c raw (by omega)
  have hpttwi : 14 + k ≠ 41 := by omega
  have htg0 : 14 + k = 15 ∨ 14 + k = 14 := by omega
  rw [bit_tcrReadView c raw (by omega)]
  cases hprog : c.tg0ReadbackProgrammed with
  | true => simp [hpttwi, hlive]
  | false =>
    rw [if_neg (fun h => hpttwi h.1), if_pos ⟨htg0, rfl⟩, if_neg Bool.false_ne_true, Nat.add_sub_cancel_left,
      BitVec.getLsbD_eq_getElem hk]

/-- Settles O23: the choice case by case of the value programmed, and bits [15:14] of the read view. -/
theorem granuleChosenAndReadBack : Obligations.GranuleChosenAndReadBack :=
  fun c raw => ⟨fun _ hv hg => effTG0_of_implemented hv hg, fun _ hv hg => effTG0_of_not_implemented hv hg,
    effTG0_of_reserved, fun hc => implementsGranule_effTG0 hc raw, slice_tcrReadView_tg0 c raw⟩

/-! ## Writing back what was read (R32, R59, R80) -/

/-- What R12 reads back differs from the raw value in reserved bits alone. -/
theorem agreeOnLiveBits_readBack (c : Cfg) (raw stored : Word) :
    AgreeOnLiveBits c raw (readBack raw (tcrRes0 c raw) (tcrRes1 c raw) stored) := by
  intro b hb hlive
  rw [bit_readBack _ _ _ _ hb, bit_tcrReserved c raw hb, hlive, if_neg Bool.false_ne_true]

/-- R59: reading TG0 back names the granule in use, so writing it back chooses that granule again. -/
theorem effTG0_tcrReadView {c : Cfg} (hc : CfgSound c) (raw : Word) : effTG0 c (tcrReadView c raw) = effTG0 c raw := by
  have hslice := slice_tcrReadView_tg0 c raw
  cases hprog : c.tg0ReadbackProgrammed with
  | true =>
    rw [hprog, if_pos rfl] at hslice
    rw [effTG0, hslice, effTG0]
  | false =>
    rw [hprog, if_neg Bool.false_ne_true] at hslice
    exact effTG0_of_implemented hslice (implementsGranule_effTG0 hc raw)

/-- R36: a read-only PTTWI has no say, and any other reads back as written or is reserved. -/
theorem effPTTWI_tcrReadView (c : Cfg) (raw : Word) : effPTTWI c (tcrReadView c raw) = effPTTWI c raw := by
  unfold effPTTWI
  cases hthe : c.featThe with
  | false => rfl
  | true =>
    cases hfixed : c.pttwiFixed0 with
    | true => rfl
    | false => simp [bit_tcrReadView, hfixed, tcrReservedNow, hthe]

/-- The Effective values in terms of TG0's, PTTWI's and the bits of the other fields. -/
theorem effective_congr {c : Cfg} {raw raw' : Word} (htg0 : effTG0 c raw' = effTG0 c raw)
    (hpttwi : effPTTWI c raw' = effPTTWI c raw)
    (hbits : ∀ b < 64, b ≠ 14 → b ≠ 15 → b ≠ 41 → bit raw' b = bit raw b) : effective c raw' = effective c raw := by
  have hslice : ∀ lo width, lo + width ≤ 14 ∨ 16 ≤ lo ∧ lo + width ≤ 41 → slice raw' lo width = slice raw lo width :=
    fun lo width h => slice_congr fun k hk => hbits (lo + k) (by omega) (by omega) (by omega) (by omega)
  simp [effective, effDisCH0, effHAFT, effD128, effAIE, effPOE, effPIE, effPnCH, effMTX, dsLive, effDS, effTCMA, effTBID,
    effHPD, effHWU, effHD, effHA, htg0, hpttwi, hbits, hslice]

/-- Settles O21: outside TG0 and PTTWI the read view is what R12 reads back, which differs from the raw value in reserved
bits alone; and those two fields keep their Effective values. -/
theorem writingBackTheReadViewKeepsEffective : Obligations.WritingBackTheReadViewKeepsEffective := by
  intro c raw hc
  have hlive := agreeOnLiveBits_readBack c raw c.resStoredTcr
  have hrest : ∀ b < 64, b ≠ 14 → b ≠ 15 → b ≠ 41 →
      bit (tcrReadView c raw) b = bit (readBack raw (tcrRes0 c raw) (tcrRes1 c raw) c.resStoredTcr) b := by
    intro b hb h14 h15 h41
    rw [tcrReadView, bit_readBackPTTWI c _ hb, bit_readBackTG0 c raw _ hb]
    simp [h14, h15, h41]
  calc effective c (tcrReadView c raw)
      = effective c (readBack raw (tcrRes0 c raw) (tcrRes1 c raw) c.resStoredTcr) :=
        effective_congr ((effTG0_tcrReadView hc raw).trans hlive.effTG0_eq.symm)
          ((effPTTWI_tcrReadView c raw).trans hlive.effPTTWI_eq.symm) hrest
    _ = effective c raw := hlive.effective_eq

/-! ## The Effective values in raw bits and features (R33 to R64, R80) -/

section
variable (c : Cfg) (raw : Word)

/-- R59 in the raw bits: each size with the value that programs it. -/
theorem effTG0_eq_ite :
    effTG0 c raw =
      (if slice raw 14 2 = 0b00 ∧ c.granules.kb4 = true then .kb4
       else if slice raw 14 2 = 0b01 ∧ c.granules.kb64 = true then .kb64
       else if slice raw 14 2 = 0b10 ∧ c.granules.kb16 = true then .kb16
       else fallbackTG0 c (slice raw 14 2)) := by
  rcases twoBit_cases (slice raw 14 2) with h | h | h | h <;> simp [effTG0, decodeTG0, implementsGranule, h]

/-- R34 in the raw bits. -/
theorem effDisCH0_eq : effDisCH0 c raw = (c.featD128 && bit raw 38 && bit raw 43) := by
  rw [effDisCH0, featD128_and_effD128, effD128]

/-- R44 in the raw bits and the granule in use. -/
theorem effDS_eq :
    effDS c raw =
      (c.featLpa2 && !(c.featD128 && bit raw 38) && !decide (effTG0 c raw = .kb64) && bit raw 32) := by
  rw [effDS, dsLive, ← Bool.not_and, featD128_and_effD128, effD128, decide_not]

/-- R48 to R51 in the raw bits. -/
theorem effHWU_eq (n : Nat) : effHWU c raw n = (c.featHpds2 && c.featHpds && bit raw 24 && bit raw n) := by
  rw [effHWU, effHPD, ← Bool.and_assoc]

/-- R54 in the raw bits. -/
theorem dirtyStateManaged_effective :
    dirtyStateManaged (effective c raw) = (c.featHafdbs && bit raw 22 && bit raw 21) := by
  cases hfeat : c.featHafdbs <;> simp [dirtyStateManaged, effective, effHD, effHA, hfeat]

end

/-- Settles O22: a field whose definition is not already its rule in raw bits has a lemma above. -/
theorem effectiveValuesFollowR80 : Obligations.EffectiveValuesFollowR80 := by
  intro c raw
  exact ⟨rfl, effTG0_eq_ite c raw, effDisCH0_eq c raw, rfl, rfl, rfl, rfl, rfl, rfl, rfl, effDS_eq c raw, rfl, rfl, rfl,
    effHWU_eq c raw 28, effHWU_eq c raw 27, effHWU_eq c raw 26, effHWU_eq c raw 25, rfl, rfl, rfl, rfl, rfl, rfl, rfl,
    rfl, dirtyStateManaged_effective c raw⟩

/-! ## HWU, PTTWI, HD and POE (R36, R40, R48 to R51, R54) -/

/-- R48 to R51: an HWU field is 0 for use while HPD is 0. -/
theorem effHWU_of_hpd_clear {c : Cfg} {raw : Word} (h : effHPD c raw = false) (n : Nat) : effHWU c raw n = false := by
  rw [effHWU, h, Bool.and_false, Bool.false_and]

/-- R48 to R51: an HWU field is its bit under FEAT_HPDS2 while HPD is 1. -/
theorem effHWU_of_hpd_set {c : Cfg} {raw : Word} (h : effHPD c raw = true) (n : Nat) :
    effHWU c raw n = (c.featHpds2 && bit raw n) := by
  rw [effHWU, h, Bool.and_true]

/-- A hardware use is told exactly where it is allowed (D26). -/
theorem isSome_hwuAllowed (allowed : Bool) (b : HwuBit) : (hwuAllowed allowed b).isSome = allowed := by
  cases allowed <;> rfl

/-- Settles O24: the two values of Eff.HPD, and what the walk is told of each field. -/
theorem hwuFieldsNeedHpd : Obligations.HwuFieldsNeedHpd := by
  intro c raw ttbr0 va acc
  refine ⟨fun h => ?_, fun h => ?_, isSome_hwuAllowed _ _, isSome_hwuAllowed _ _, isSome_hwuAllowed _ _,
    isSome_hwuAllowed _ _⟩
  · have hclear := effHWU_of_hpd_clear h
    exact ⟨hclear 28, hclear 27, hclear 26, hclear 25⟩
  · have hset := effHWU_of_hpd_set h
    exact ⟨hset 28, hset 27, hset 26, hset 25⟩

/-- Settles O25: for use PTTWI is its definition, and as read bit 41 is the first arm of R32's loop. -/
theorem pttwiLiveOrStuckAtZero : Obligations.PttwiLiveOrStuckAtZero := by
  intro c raw
  refine ⟨rfl, rfl, fun hthe hfixed => ?_⟩
  rw [bit_tcrReadView c raw (by decide), if_pos ⟨rfl, hthe, hfixed⟩]

/-- Settles O26: the walk's control is the conjunction of the two Effective values, and bit 22 is live under
FEAT_HAFDBS. -/
theorem dirtyStateNeedsHdAndHa : Obligations.DirtyStateNeedsHdAndHa := by
  intro c raw ttbr0 va acc
  refine ⟨rfl, Bool.and_eq_true_iff, fun hfeat => bit_tcrReadView_of_live (by decide) (by decide) (by decide) ?_⟩
  simp [tcrReservedNow, hfeat]

/-- Settles O38: the one field of `State.seenEffective` that is not picked from `History`. -/
theorem poeIsNeverCachedInATlb : Obligations.PoeIsNeverCachedInATlb :=
  fun _ _ _ _ => ⟨rfl, rfl⟩

/-! ## The initial lookup level and the region (R64, R150, R152) -/

/-- R152: where a source gives the initial lookup level, and which. -/
theorem initialLevel_eq_some_iff {c : Cfg} {e : Effective} {l : Int} :
    initialLevel c e = some l ↔ c.featLpa2 = true ∧ t0szMin e ≤ e.t0sz.toNat ∧
      ((l = -1 ∧ e.tg0 = .kb4 ∧ e.t0sz.toNat < 16) ∨ (l = 0 ∧ e.tg0 = .kb16 ∧ e.t0sz.toNat < 17)) := by
  unfold initialLevel
  by_cases hmin : e.t0sz.toNat < t0szMin e
  · simp [hmin]
  · cases hg : e.tg0 <;> cases hfeat : c.featLpa2 <;> simp [hmin, Nat.le_of_not_lt hmin, eq_comm, and_comm]

/-- R44, R152: the minimum is below 16 only with DS = 1. -/
theorem ds_of_t0szMin_lt {e : Effective} (h : t0szMin e < 16) : e.ds = true := by
  unfold t0szMin at h
  split at h
  · assumption
  · exact absurd h (by decide)

/-- R64: T0SZ is 6 bits wide, so the region and T0SZ make up the 64 bits of an address. -/
theorem regionSize_mul_pow_t0sz (e : Effective) : regionSize e * 2 ^ e.t0sz.toNat = 2 ^ 64 := by
  have hlt : e.t0sz.toNat ≤ 64 := by have := e.t0sz.isLt; omega
  rw [regionSize, ← Nat.pow_add, Nat.sub_add_cancel hlt]

/-- Settles O46: the first three parts are one equivalence, read in both directions. -/
theorem initialLevelAndRegionSize : Obligations.InitialLevelAndRegionSize := by
  intro c e
  refine ⟨fun hmin hfeat hg hlt => ⟨?_, ds_of_t0szMin_lt (by omega)⟩, fun hmin hfeat hg hlt => ?_, fun l h => ?_, rfl,
    regionSize_mul_pow_t0sz e⟩
  · exact initialLevel_eq_some_iff.mpr ⟨hfeat, hmin, .inl ⟨rfl, hg, hlt⟩⟩
  · exact initialLevel_eq_some_iff.mpr ⟨hfeat, hmin, .inr ⟨rfl, hg, hlt⟩⟩
  · exact initialLevel_eq_some_iff.mp h

/-! ## What a walk is told (R150 to R161) -/

/-- R61, R62: the value table of ORGN0 and IRGN0. -/
theorem decodeCacheability_eq_table (v : BitVec 2) :
    decodeCacheability v =
      match v with
      | 0b00 => .nonCacheable
      | 0b01 => .writeBackReadWriteAllocate
      | 0b10 => .writeThroughReadAllocate
      | _ => .writeBackReadAllocate := by
  rcases twoBit_cases v with rfl | rfl | rfl | rfl <;> rfl

/-- R60: the value table of SH0. -/
theorem decodeShareability_eq_table (v : BitVec 2) :
    decodeShareability v =
      match v with
      | 0b00 => some .nonShareable
      | 0b10 => some .outerShareable
      | 0b11 => some .innerShareable
      | _ => none := by
  rcases twoBit_cases v with rfl | rfl | rfl | rfl <;> rfl

/-- R58, R154: the value table of PS. -/
theorem outputSizeBits_eq_table (v : BitVec 3) :
    outputSizeBits v =
      match v with
      | 0b000 => 32
      | 0b001 => 36
      | 0b010 => 40
      | 0b011 => 42
      | 0b100 => 44
      | 0b101 => 48
      | 0b110 => 52
      | _ => 56 := by
  fin_cases v <;> rfl

/-- Settles O48: cacheability, shareability and the output size by their tables, the rest by what each control is made of. -/
theorem walkControlsFollowTcr : Obligations.WalkControlsFollowTcr := by
  intro c raw ttbr0 va acc
  refine ⟨decodeCacheability_eq_table _, decodeCacheability_eq_table _, decodeShareability_eq_table _,
    outputSizeBits_eq_table _, rfl, rfl, rfl, decide_eq_true_iff, rfl, rfl, ?tableBase, fun _ => rfl, rfl, rfl, rfl, rfl,
    rfl, rfl, rfl, rfl, rfl, rfl, rfl⟩
  case tableBase =>
    simp only [walkControls, tableBase55to52Zero, Bool.and_eq_true_iff, decide_eq_true_iff]
    exact Iff.rfl

end Sys2Proof.Machine

/-! PROOFS of the statements on what a step keeps: the invariant of the machine (R91, R170, R236, R240, R263), `History`
(R170), and memory with the regime disabled (R166, R171, R205). -/

namespace Sys2Proof.Machine

/-! ## The invariant of the machine (R91, R170, R236, R240, R263) -/

/-- The invariant is about memory, `History`, TCR_EL3, PSTATE and the configuration alone. -/
theorem State.Inv.congr {s s' : State} (h : s.Inv) (hcfg : s'.cfg = s.cfg) (hmem : s'.mem = s.mem)
    (hhistory : s'.history = s.history) (htcr : s'.tcrEL3 = s.tcrEL3) (hpstate : s'.pstate = s.pstate) : s'.Inv := by
  obtain ⟨memory, history, level, aarch32, config⟩ := h
  rw [← hmem] at memory
  rw [← hhistory, ← htcr] at history
  rw [← hcfg, ← hpstate] at level aarch32
  rw [← hcfg] at config
  exact ⟨memory, history, level, aarch32, config⟩

/-- The walker's writes keep the canonical form of memory. -/
theorem State.Inv.withUpdates {s : State} (h : s.Inv) (u : List (Word × Byte)) : (s.withUpdates u).Inv :=
  { h with memory := Memory.wf_writeAll h.memory u }

/-- R170: a write of TCR_EL3 puts the new value last in `History`. -/
theorem State.Inv.writeTcr {s : State} (h : s.Inv) (v : Word) : (s.writeTcr v).Inv :=
  { h with history := List.getLast?_concat }

/-- An entry goes to EL3, in AArch64 state. -/
theorem State.Inv.takeExceptionToEL3 {s : State} (h : s.Inv) (hEL3 : s.cfg.haveEL3 = true) (k : ExceptionKind)
    (y : Word) : (s.takeExceptionToEL3 k y).Inv :=
  { h with level := hEL3, aarch32 := fun hn => absurd hn Bool.false_ne_true }

/-- R263: the launch state is an implemented Exception level in AArch64 state, and `History` restarts. -/
theorem State.Inv.warmReset {s : State} (h : s.Inv) : s.warmReset.Inv := by
  obtain ⟨-, -, -, -, -, -, hlevel, hAArch64⟩ := h.config
  exact { memory := h.memory, history := rfl, level := hlevel, config := h.config,
          aarch32 := fun hn => absurd (hAArch64.symm.trans hn) Bool.false_ne_true }

/-- A return goes to the level and the Execution state of the saved value, whichever layout that has. -/
theorem restoredPState_el_nRW (c : Cfg) (raw : Word) (copySS copyPPEND : Bool) (p : PState) :
    (restoredPState c raw copySS copyPPEND p).el = spsrTargetEL raw ∧
    (restoredPState c raw copySS copyPPEND p).nRW = spsrIsAArch32 raw := by
  unfold restoredPState spsrTargetEL
  split
  · rename_i hlayout
    exact ⟨by simp [restoreAArch32, spsrTargetEL, hlayout], rfl⟩
  · exact ⟨rfl, rfl⟩

/-- R236: a legal return goes to an implemented level, and to AArch32 state only where it is supported. -/
theorem legalReturn_target {c : Cfg} {raw : Word} (h : illegalReturn c raw = false) :
    implementedEL c (spsrTargetEL raw) = true ∧ (spsrIsAArch32 raw = true → c.aarch32Supported = true) := by
  unfold illegalReturn at h
  split at h
  · simp only [Bool.or_eq_false_iff, Bool.not_eq_false'] at h
    obtain ⟨⟨hsupported, -⟩, hlevel⟩ := h
    exact ⟨hlevel, fun _ => hsupported⟩
  · rename_i hlayout
    simp only [Bool.or_eq_false_iff, Bool.not_eq_false'] at h
    exact ⟨h.2, fun h32 => absurd h32 hlayout⟩

/-- R240, R91: a legal return keeps the invariant. -/
theorem State.Inv.returnedFromEL3 {s : State} (h : s.Inv) (hlegal : illegalReturn s.cfg s.spsrEL3 = false) :
    s.returnedFromEL3.Inv := by
  obtain ⟨hlevel, h32⟩ := legalReturn_target hlegal
  obtain ⟨hel, hnRW⟩ := restoredPState_el_nRW s.cfg s.spsrEL3 (Config.unknownBit s.draws)
    (Config.unknownBit (s.draws + 1)) s.pstate
  exact { h with
    level := by rwa [← hel] at hlevel
    aarch32 := by rwa [← hnRW] at h32 }

/-- The invariant over an access of the EL3 regime. -/
theorem accessEL3_keeps_inv {s s' : State} {n : Nat} {va pa : Word} {acc : Access}
    (h : s.accessEL3 n va acc = .next (pa, s')) (hinv : s.Inv) : s'.Inv := by
  obtain ⟨u, rfl⟩ := accessEL3_updates h
  exact hinv.withUpdates u

/-- The invariant over a fetch. -/
theorem fetch_keeps_inv {s s' : State} {bs : List Byte} (h : s.fetch = .next (bs, s')) (hinv : s.Inv) : s'.Inv := by
  obtain ⟨u, rfl⟩ := fetch_updates h
  exact hinv.withUpdates u

/-- The invariant over the four instructions: a write of TCR_EL3 and the trap touch what it speaks of, and nothing else
does. -/
theorem exec_keeps_inv {i : Instr} {s s' : State} (h : exec i s = .next s') (hinv : s.Inv) : s'.Inv := by
  obtain ⟨⟨hEL3, -⟩, hcase⟩ := exec_next h
  rcases hcase with ⟨t, -, rfl⟩ | ⟨t, -, -, rfl⟩ | ⟨t, -, -, -, rfl⟩ | ⟨t, -, rfl⟩ | ⟨t, -, rfl⟩
  · exact hinv.congr rfl rfl rfl rfl rfl
  · exact (hinv.writeTcr (s.readX t)).congr rfl rfl rfl rfl rfl
  · exact hinv.takeExceptionToEL3 hEL3 _ _
  · exact hinv.congr rfl rfl rfl rfl rfl
  · exact hinv.congr rfl rfl rfl rfl rfl

/-- An entry is possible only with EL3. -/
theorem haveEL3_of_canEnterEL3 {s : State} (h : s.canEnterEL3 = true) : s.cfg.haveEL3 = true :=
  (Bool.and_eq_true_iff.mp h).1

/-- The invariant over the events of the environment. -/
theorem handleEvent_keeps_inv {e : Event} {s s' : State} (h : s.handleEvent e = .next s') (hinv : s.Inv) : s'.Inv := by
  rcases handleEvent_next h with ⟨-, rfl⟩ | ⟨-, -, hlegal, rfl⟩ | ⟨k, y, -, hcan, -, rfl⟩ |
    ⟨va, acc, pa, s₁, -, -, ha, rfl⟩
  · exact hinv.warmReset
  · exact hinv.returnedFromEL3 hlegal
  · exact hinv.takeExceptionToEL3 (haveEL3_of_canEnterEL3 hcan) k y
  · exact (accessEL3_keeps_inv ha hinv).congr rfl rfl rfl rfl rfl

/-- Settles O51: a step is an event, taken after it left the list of events to come, or a fetch and the instruction it
reads; each keeps the invariant. -/
theorem stepKeepsInvariant : Obligations.StepKeepsInvariant := by
  intro s s' hinv h
  rcases step_next h with ⟨e, rest, -, he⟩ | ⟨-, bs, s₁, i, rest, hf, -, hx⟩
  · exact handleEvent_keeps_inv he (hinv.congr rfl rfl rfl rfl rfl)
  · exact exec_keeps_inv hx (fetch_keeps_inv hf hinv)

/-! ## `History` over a step (R170) -/

/-- R170 for the four instructions: MSR TCR_EL3 appends the value it writes. -/
theorem exec_history {i : Instr} {s s' : State} (h : exec i s = .next s') :
    s'.history = s.history ∨ s'.history = s.history ++ [s'.tcrEL3] := by
  obtain ⟨-, hcase⟩ := exec_next h
  rcases hcase with ⟨t, -, rfl⟩ | ⟨t, -, -, rfl⟩ | ⟨t, -, -, -, rfl⟩ | ⟨t, -, rfl⟩ | ⟨t, -, rfl⟩
  · exact .inl rfl
  · exact .inr rfl
  · exact .inl rfl
  · exact .inl rfl
  · exact .inl rfl

/-- R170 for the events of the environment: only a Warm reset restarts `History`. -/
theorem handleEvent_history {e : Event} {s s' : State} (h : s.handleEvent e = .next s') :
    e = .warmReset ∨ s'.history = s.history := by
  rcases handleEvent_next h with ⟨he, -⟩ | ⟨-, -, -, rfl⟩ | ⟨k, y, -, -, -, rfl⟩ | ⟨va, acc, pa, s₁, -, -, ha, rfl⟩
  · exact .inl he
  · exact .inr (State.returnedFromEL3_history s)
  · exact .inr (State.takeExceptionToEL3_history s k y)
  · obtain ⟨u, rfl⟩ := accessEL3_updates ha
    exact .inr (State.withUpdates_history s u)

/-- Settles O58: an event but the Warm reset leaves `History`, and so does a fetch; an instruction leaves it or appends the
new value of TCR_EL3. -/
theorem historyOnlyGrows : Obligations.HistoryOnlyGrows := by
  intro s s' h hnoReset
  rcases step_next h with ⟨e, rest, hev, he⟩ | ⟨-, bs, s₁, i, rest, hf, -, hx⟩
  · rcases handleEvent_history he with rfl | hsame
    · exact absurd hev (hnoReset rest)
    · exact .inl hsame
  · obtain ⟨u, rfl⟩ := fetch_updates hf
    exact (exec_history hx :)

/-! ## Memory over a step with the regime disabled (R166, R171, R205) -/

/-- R205: none of the four instructions stores. -/
theorem exec_mem {i : Instr} {s s' : State} (h : exec i s = .next s') : s'.mem = s.mem := by
  obtain ⟨-, hcase⟩ := exec_next h
  rcases hcase with ⟨t, -, rfl⟩ | ⟨t, -, -, rfl⟩ | ⟨t, -, -, -, rfl⟩ | ⟨t, -, rfl⟩ | ⟨t, -, rfl⟩ <;> rfl

/-- R171: with the regime disabled there is no walk, so an access leaves the whole state. -/
theorem accessEL3_of_disabled {s s' : State} {n : Nat} {va pa : Word} {acc : Access}
    (h : s.accessEL3 n va acc = .next (pa, s')) (hr : s.regimeEnabled = false) :
    s' = s ∧ pa = s.untranslatedAddress n va acc := by
  rcases accessEL3_next h with ⟨-, hs, hpa⟩ | ⟨hr', -⟩
  · exact ⟨hs, hpa⟩
  · exact absurd (hr.symm.trans hr') Bool.false_ne_true

/-- R171 for the fetch. -/
theorem fetch_of_disabled {s s' : State} {bs : List Byte} (h : s.fetch = .next (bs, s'))
    (hr : s.regimeEnabled = false) : s' = s := by
  obtain ⟨-, -, pa, hf, -⟩ := fetch_next h
  unfold State.fetchAccess at hf
  split at hf
  · exact (accessEL3_of_disabled hf hr).1
  · cases hf
    rfl

/-- No event writes memory with the regime disabled; a Warm reset leaves it (log 33). -/
theorem handleEvent_mem_of_disabled {e : Event} {s s' : State} (h : s.handleEvent e = .next s')
    (hr : s.regimeEnabled = false) : s'.mem = s.mem := by
  rcases handleEvent_next h with ⟨-, rfl⟩ | ⟨-, -, -, rfl⟩ | ⟨k, y, -, -, -, rfl⟩ | ⟨va, acc, pa, s₁, -, -, ha, rfl⟩
  · exact State.warmReset_mem s
  · exact State.returnedFromEL3_mem s
  · exact State.takeExceptionToEL3_mem s k y
  · obtain ⟨rfl, -⟩ := accessEL3_of_disabled ha hr
    rfl

/-- Settles O59: an event, a fetch and an instruction each leave memory as it was, as a list of bytes and so as read. -/
theorem stepKeepsMemoryWithRegimeDisabled : Obligations.StepKeepsMemoryWithRegimeDisabled := by
  intro s s' h hr a
  rcases step_next h with ⟨e, rest, -, he⟩ | ⟨-, bs, s₁, i, rest, hf, -, hx⟩
  · rw [handleEvent_mem_of_disabled he hr]
  · obtain rfl := fetch_of_disabled hf hr
    rw [exec_mem hx]

end Sys2Proof.Machine

/-! PROOFS of the statements on an access of the EL3 regime and its translation: what it sees of TCR_EL3 and writes to
tables, its checks, the top byte and the tags of its address, the TLBI Range argument and the descriptor bits (R42 to R46,
R52, R58, R60, R152 to R160, R163, R170 to R172). -/

namespace Sys2Proof.Machine

/-! ## What a translation sees of TCR_EL3 (R170) -/

/-- Settles O37: every field but POE is picked from `History`. -/
theorem seenFieldsComeFromHistory : Obligations.SeenFieldsComeFromHistory := by
  intro s n hne
  have pick : ∀ {α : Type} [DecidableEq α] (f : TcrField) (g : Word → α),
      ∃ h ∈ s.history, pickField s.history s.tcrEL3 n f g = g h := pickField_mem hne s.tcrEL3 n
  exact ⟨pick .t0sz (slice · 0 6), pick .tg0 _, pick .ps (slice · 16 3), pick .sh0 (slice · 12 2),
    pick .orgn0 (slice · 10 2), pick .irgn0 (slice · 8 2), pick .ds _, pick .d128 _, pick .tbi (bit · 20), pick .tbid _,
    pick .hpd _, pick .ha _, pick .hd _, pick .haft _, pick .pttwi _, pick .aie _, pick .pie _, pick .pnCH _,
    pick .mtx _, pick .tcma _, pick .disCH0 _, pick .hwu62 (effHWU s.cfg · 28), pick .hwu61 (effHWU s.cfg · 27),
    pick .hwu60 (effHWU s.cfg · 26), pick .hwu59 (effHWU s.cfg · 25), rfl⟩

/-! ## The walker's writes (R159) -/

/-- R159: without HA and HAFT there is no dirty state management either, and the walker writes nothing. -/
theorem allowedUpdates_of_not_ha_haft {e : Effective} (hha : e.ha = false) (hhaft : e.haft = false)
    (u : List (Word × Byte)) : allowedUpdates e u = [] := by
  simp [allowedUpdates, dirtyStateManaged, hha, hhaft]

/-- Settles O42: memory after an access is memory before with the writes of its translation, of which R159 allows none
without HA and HAFT; with the regime disabled there is no translation. -/
theorem walkerWritesOnlyUnderItsControls : Obligations.WalkerWritesOnlyUnderItsControls := by
  intro s s' n va pa acc h
  rcases accessEL3_next h with ⟨hr, rfl, -⟩ | ⟨hr, u, hu, rfl⟩
  · exact ⟨rfl, id, fun _ => rfl, fun hr' => absurd (hr.symm.trans hr') Bool.false_ne_true⟩
  · refine ⟨rfl, fun hwf => Memory.wf_writeAll hwf u, fun hr' => absurd (hr'.symm.trans hr) Bool.false_ne_true,
      fun _ => ⟨u, hu, rfl, fun hha hhaft => ?_⟩⟩
    obtain ⟨-, -, -, -, -, u₀, -, rfl⟩ := translateEL3_mapped hu
    exact allowedUpdates_of_not_ha_haft hha hhaft u₀

/-! ## The checks of a translation (R58, R60, R152, R163) -/

/-- R58: a value of PS whose meaning is unconditional, or one of the two whose meaning is not. -/
theorem ps_cases (ps : BitVec 3) : ps.toNat ≤ 0b101 ∨ ps = 0b110 ∨ ps = 0b111 := by
  revert ps
  decide

/-- R58: the values of PS without a meaning. -/
theorem psHasMeaning_eq_false_iff {c : Cfg} {ps : BitVec 3} :
    psHasMeaning c ps = false ↔ (ps = 0b110 ∧ c.ps52Implemented = false) ∨ (ps = 0b111 ∧ c.featD128 = false) := by
  rcases ps_cases ps with h | rfl | rfl
  · have hne : ps ≠ 6#3 ∧ ps ≠ 7#3 :=
      ⟨fun h110 => absurd (h110 ▸ h) (by decide), fun h111 => absurd (h111 ▸ h) (by decide)⟩
    simp [psHasMeaning, h, hne]
  · simp [psHasMeaning]
  · simp [psHasMeaning]

/-- Settles O40: the checks of R163 in their order, each clause past the ones before it. -/
theorem translationRefusals : Obligations.TranslationRefusals := by
  intro c e ttbr0 va mem acc n hmin
  rw [translateEL3, if_neg (Nat.not_lt.mpr hmin)]
  refine ⟨fun hsh0 => if_pos hsh0, fun hsh0 hps => ?_, fun hsh0 h110 h111 hmax => ?_⟩
  · rw [if_neg hsh0, psHasMeaning_eq_false_iff.mpr hps]
    rfl
  · have hps : psHasMeaning c e.ps = true := by
      rw [← Bool.not_eq_false, psHasMeaning_eq_false_iff]
      rintro (⟨hv, hc⟩ | ⟨hv, hc⟩)
      · exact absurd (hc.symm.trans (h110 hv)) Bool.false_ne_true
      · exact absurd (hc.symm.trans (h111 hv)) Bool.false_ne_true
    rw [if_neg hsh0, hps, if_neg (by decide), if_pos hmax]

/-- R163: a translation answers an address exactly when it passes every check and the walk maps the matched address. -/
theorem translateEL3_eq_mapped_iff {c : Cfg} {e : Effective} {ttbr0 va pa : Word} {mem : List Host.Cell} {acc : Access}
    {n : Nat} {u : List (Word × Byte)} :
    translateEL3 c e ttbr0 mem va acc n = .mapped pa u ↔
      (t0szMin e ≤ e.t0sz.toNat ∧ e.sh0 ≠ 0b01 ∧ psHasMeaning c e.ps = true ∧ e.t0sz.toNat ≤ c.t0szMax) ∧
      ∃ pa₀ u₀, Config.translateS1EL3 (walkRequest c e ttbr0 mem va acc) n = .mapped pa₀ u₀ ∧
        constrainOutput e pa₀ = pa ∧ allowedUpdates e u₀ = u := by
  by_cases hchecks : t0szMin e ≤ e.t0sz.toNat ∧ e.sh0 ≠ 0b01 ∧ psHasMeaning c e.ps = true ∧ e.t0sz.toNat ≤ c.t0szMax
  · rw [and_iff_right hchecks]
    obtain ⟨hmin, hsh0, hps, hmax⟩ := hchecks
    rw [translateEL3, if_neg (Nat.not_lt.mpr hmin), if_neg hsh0, hps, if_neg (by decide), if_neg (Nat.not_lt.mpr hmax)]
    cases Config.translateS1EL3 (walkRequest c e ttbr0 mem va acc) n with
    | mapped pa₀ u₀ => simp
    | notInSource => simp
  · refine iff_of_false (fun h => ?_) (fun h => hchecks h.1)
    obtain ⟨hmin, hsh0, hps, hmax, -⟩ := translateEL3_mapped h
    exact hchecks ⟨hmin, hsh0, hps, hmax⟩

/-! ## The top byte of an address (R157) -/

/-- R157: the accesses TBI applies to. -/
theorem tbiApplies_iff {c : Cfg} {e : Effective} {acc : Access} :
    tbiApplies c e acc = true ↔ e.tbi = true ∧ (acc = .data ∨ acc = .maintenance ∨
      (acc = .instruction ∧ ¬ (c.featPauth = true ∧ e.tbid = true))) := by
  cases acc <;> simp [tbiApplies, imp_iff_not_or]

/-- One bit of an address without its top byte. -/
theorem bit_clearTopByte (a : Word) {n : Nat} (hn : n < 64) : bit (clearTopByte a) n = (decide (n < 56) && bit a n) := by
  have hmask : bit (fieldMask 63 56) n = !decide (n < 56) := by
    rw [bit_fieldMask_of_le hn (by decide), Bool.eq_iff_iff]
    simp only [Bool.and_eq_true, Bool.not_eq_true', decide_eq_true_eq, decide_eq_false_iff_not]
    omega
  rw [clearTopByte, bit_and, bit_not, hmask, Bool.not_not, decide_eq_true hn, Bool.true_and, Bool.and_comm]

/-- R157: where TBI applies the top byte takes no part in the address match. -/
theorem matchedAddress_of_tbi {c : Cfg} {e : Effective} {acc : Access} (h : tbiApplies c e acc = true) (va : Word) :
    matchedAddress c e acc va = clearTopByte va := if_pos h

/-- R157: where TBI does not apply the address is matched whole. -/
theorem matchedAddress_of_not_tbi {c : Cfg} {e : Effective} {acc : Access} (h : tbiApplies c e acc = false) (va : Word) :
    matchedAddress c e acc va = va := if_neg (Bool.not_eq_true _ ▸ h)

/-- The low 56 bits always take part. -/
theorem bit_matchedAddress_of_lt (c : Cfg) (e : Effective) (acc : Access) (va : Word) {n : Nat} (hn : n < 56) :
    bit (matchedAddress c e acc va) n = bit va n := by
  cases h : tbiApplies c e acc with
  | true => rw [matchedAddress_of_tbi h, bit_clearTopByte va (by omega), decide_eq_true hn, Bool.true_and]
  | false => rw [matchedAddress_of_not_tbi h]

/-- Registers with the same field agree on its bits. -/
theorem bit_eq_of_slice_eq {a b : Word} {lo width : Nat} (h : slice a lo width = slice b lo width) {n : Nat}
    (hlo : lo ≤ n) (hn : n < lo + width) : bit a n = bit b n := by
  have := congrArg (·.getLsbD (n - lo)) h
  simpa [show n - lo < width by omega, Nat.add_sub_cancel' hlo] using this

/-- Addresses that differ at most in an ignored top byte are matched as one. -/
theorem matchedAddress_congr {c : Cfg} {e : Effective} {acc : Access} {va va' : Word}
    (hlow : slice va 0 56 = slice va' 0 56) (htop : tbiApplies c e acc = true ∨ slice va 56 8 = slice va' 56 8) :
    matchedAddress c e acc va = matchedAddress c e acc va' := by
  rcases htop with htbi | htop
  · rw [matchedAddress_of_tbi htbi, matchedAddress_of_tbi htbi]
    refine eq_of_bits fun n hn => ?_
    rw [bit_clearTopByte va hn, bit_clearTopByte va' hn]
    by_cases h56 : n < 56
    · rw [bit_eq_of_slice_eq hlow (Nat.zero_le n) (by omega)]
    · rw [decide_eq_false h56, Bool.false_and, Bool.false_and]
  · have hva : va = va' := eq_of_bits fun n hn => by
      by_cases h56 : n < 56
      · exact bit_eq_of_slice_eq hlow (Nat.zero_le n) (by omega)
      · exact bit_eq_of_slice_eq htop (by omega) (by omega)
    rw [hva]

/-- Settles O43: what is matched of an address, and that a translation answers by that alone. -/
theorem topByteIgnoredWhereTbiApplies : Obligations.TopByteIgnoredWhereTbiApplies := by
  intro c e acc va
  refine ⟨tbiApplies_iff, fun h => ?top, fun h => matchedAddress_of_not_tbi h va, ?low, ?translate⟩
  case top =>
    rw [matchedAddress_of_tbi h]
    exact slice_eq_of_bits fun k hk => by simp [bit_clearTopByte va (show 56 + k < 64 by omega)]
  case low => exact slice_congr fun k hk => bit_matchedAddress_of_lt c e acc va (by omega)
  case translate =>
    intro va' ttbr0 pa mem n u hlow htop
    rw [translateEL3_eq_mapped_iff, translateEL3_eq_mapped_iff,
      walkRequest_congr ttbr0 mem (matchedAddress_congr hlow htop)]

/-! ## Tags (R43, R46, R158, R171) -/

/-- MTX acts on every data access. -/
@[simp] theorem mtxActs_data (e : Effective) : mtxActs e .data = e.mtx := rfl

/-- The accesses MTX does not act on (log 43). -/
theorem mtxActs_eq_false_iff {e : Effective} {acc : Access} : mtxActs e acc = false ↔ e.mtx = false ∨ acc ≠ .data := by
  cases acc <;> simp

/-- R46: the accesses TCMA makes Unchecked. -/
theorem unchecked_iff {c : Cfg} {e : Effective} {acc : Access} {va : Word} :
    (tagControls c e acc va).unchecked = true ↔ e.tcma = true ∧ slice va 56 4 = 0b0000 := by
  simp [tagControls]

/-- R158, one bit: the range check sees zeros for the tag of an access MTX acts on, and the matched address elsewhere. -/
theorem bit_rangeCheckedAddress {c : Cfg} {e : Effective} {acc : Access} (h : mtxActs e acc = true) (va : Word)
    {n : Nat} (hn : n < 64) :
    bit (rangeCheckedAddress c e acc va) n =
      (!(decide (56 ≤ n) && decide (n ≤ 59)) && bit (matchedAddress c e acc va) n) := by
  rw [rangeCheckedAddress, if_pos h, bit_and, bit_not, bit_fieldMask_of_le hn (by decide), decide_eq_true hn,
    Bool.true_and, Bool.and_comm]

/-- R158: an access MTX does not act on is range checked as matched. -/
theorem rangeCheckedAddress_of_not_mtxActs {c : Cfg} {e : Effective} {acc : Access} (h : mtxActs e acc = false)
    (va : Word) : rangeCheckedAddress c e acc va = matchedAddress c e acc va := by
  rw [rangeCheckedAddress, h, if_neg Bool.false_ne_true]

/-- R171: with the regime disabled an access is its tag check at the address itself. -/
theorem accessEL3_eq_checkTags {s : State} (hr : s.regimeEnabled = false) (n : Nat) (va : Word) (acc : Access) :
    s.accessEL3 n va acc =
      s.checkTags (tagControls s.cfg (s.seenEffective n) acc va) n va (s.untranslatedAddress n va acc) := by
  rw [State.accessEL3, hr, Bool.not_false, if_pos rfl]

/-- R158: an Unchecked access goes on without a tag check. -/
theorem checkTags_of_unchecked {s : State} {tags : TagControls} (h : tags.unchecked = true) (n : Nat) (va pa : Word) :
    s.checkTags tags n va pa = .next (pa, s) := by
  simp [State.checkTags, State.tagCheckRequest, tagCheckPasses, h]

/-- R158: an access that is neither exempt nor Unchecked goes on as the opaque check says. -/
theorem checkTags_of_checked {s : State} {tags : TagControls} (hcheck : tags.canonicalTagCheck = true)
    (hunchecked : tags.unchecked = false) (n : Nat) (va pa : Word) :
    s.checkTags tags n va pa =
      (if Config.canonicalTagCheck (s.tagCheckRequest tags va pa) n = true then .next (pa, s)
       else .refused (.tagCheckNotInSource va)) := by
  have hpasses : tagCheckPasses (s.tagCheckRequest tags va pa) n =
      Config.canonicalTagCheck (s.tagCheckRequest tags va pa) n := by
    simp [tagCheckPasses, State.tagCheckRequest, hcheck, hunchecked]
  rw [State.checkTags, hpasses]

/-- Settles O44: the tag controls and the range-checked address with MTX acting and not, and then the tag check that ends an
access with the regime disabled. -/
theorem tagControlsOfAnAccess : Obligations.TagControlsOfAnAccess := by
  refine ⟨fun c e acc va => ⟨fun hmtx => ?acts, fun hnot => ?idle, unchecked_iff⟩,
    fun s n va acc hr => ⟨fun hexempt => ?exempt, fun hmtx htcma => ?checked⟩⟩
  case acts =>
    have hacts : mtxActs e .data = true := hmtx
    refine ⟨by simp [tagControls, hmtx], hmtx, by simp [tagControls, hmtx], slice_eq_of_bits fun k hk => ?_,
      slice_congr fun k hk => ?_, slice_congr fun k hk => ?_⟩
    · rw [bit_rangeCheckedAddress hacts va (by omega)]
      simp [show 56 + k ≤ 59 by omega]
    · rw [bit_rangeCheckedAddress hacts va (by omega)]
      simp [show ¬ 56 ≤ k by omega]
    · rw [bit_rangeCheckedAddress hacts va (by omega)]
      simp [show ¬ 60 + k ≤ 59 by omega]
  case idle =>
    have hidle : mtxActs e acc = false := mtxActs_eq_false_iff.mpr hnot
    exact ⟨by simp [tagControls, hidle], hidle, by simp [tagControls, hidle],
      rangeCheckedAddress_of_not_mtxActs hidle va⟩
  case exempt =>
    rw [accessEL3_eq_checkTags hr]
    rcases hexempt with hmtx | hacc | htcma
    · exact checkTags_of_not_mtxActs (mtxActs_eq_false_iff.mpr (.inl hmtx))
    · exact checkTags_of_not_mtxActs (mtxActs_eq_false_iff.mpr (.inr hacc))
    · exact checkTags_of_unchecked (unchecked_iff.mpr htcma) n va _
  case checked =>
    have hunchecked : (tagControls s.cfg (s.seenEffective n) .data va).unchecked = false := by
      rw [← Bool.not_eq_true, unchecked_iff, not_and_or, Bool.not_eq_true]
      exact htcma
    rw [accessEL3_eq_checkTags hr]
    exact checkTags_of_checked hmtx hunchecked n va _

/-! ## The TLBI Range argument (R172) -/

/-- Settles O45: BaseADDR is the argument's 37 bits above 16 zeros. -/
theorem tlbiRangeArgumentUnderDS : Obligations.TlbiRangeArgumentUnderDS := by
  intro e arg hds
  have hzero {lo width : Nat} (h : lo + width ≤ 16) :
      (slice arg 0 37 ++ (0 : BitVec 16)).extractLsb' lo width = 0 :=
    (BitVec.extractLsb'_append_eq_of_add_le h).trans BitVec.extractLsb'_zero
  exact ⟨slice arg 0 37 ++ (0 : BitVec 16), if_pos hds, BitVec.extractLsb'_append_eq_left,
    fun _ => hzero (by decide), fun _ => hzero (by decide)⟩

/-! ## Descriptor bits (R42, R44, R52, R153, R160) -/

/-- R52, R160: with HPD = 1 the three hierarchical permissions are as if zero. -/
theorem tableControls_of_hpd {e : Effective} (h : e.hpd = true) (desc : Word) :
    tableControls e desc =
      { apTable := 0b00, pxnTable := false, uxnTable := false, nsTable := (storedTableControls desc).nsTable } := by
  simp [tableControls, hierarchicalKept, h]

/-- R52: with HPD = 0 the hierarchical controls act as stored. -/
theorem tableControls_of_not_hpd {e : Effective} (h : e.hpd = false) (desc : Word) :
    tableControls e desc = storedTableControls desc := by
  have hall : ∀ v : BitVec 2, v &&& 3#2 = v := by decide
  simp [tableControls, hierarchicalKept, h, hall]

/-- R153: APTable[0] is bit [61] of a Table descriptor. -/
theorem storedTableControls_apTable_zero (desc : Word) :
    (storedTableControls desc).apTable.getLsbD 0 = bit desc 61 := by
  have happend (hi lo : Bool) : (BitVec.ofBool hi ++ BitVec.ofBool lo).getLsbD 0 = lo := by
    cases hi <;> cases lo <;> rfl
  exact happend _ _

/-- R153, R154: the output address bits [51:48] under DS = 1. -/
theorem descriptorOutput51to48_of_ds {e : Effective} (h : e.ds = true) (desc : Word) :
    descriptorOutput51to48 e desc = slice desc 8 2 ++ slice desc 48 2 := if_pos h

/-- Settles O47: the two values of HPD, of DS and of PnCH. -/
theorem descriptorBitsUnderHpdDsPnch : Obligations.DescriptorBitsUnderHpdDsPnch := by
  intro e desc
  refine ⟨fun h => ?hpd, fun h => ?noHpd, ?ns, fun h => ⟨?high, ?low, if_pos h⟩, fun h => ?noDs, fun h => if_pos h,
    fun h => ?noPnch⟩
  case hpd =>
    rw [tableControls_of_hpd h]
    exact ⟨rfl, rfl, rfl⟩
  case noHpd =>
    rw [tableControls_of_not_hpd h]
    exact ⟨rfl, storedTableControls_apTable_zero desc, rfl⟩
  case ns => exact Bool.and_true _
  case high =>
    rw [descriptorOutput51to48_of_ds h]
    exact BitVec.extractLsb'_append_eq_left
  case low =>
    rw [descriptorOutput51to48_of_ds h]
    exact BitVec.extractLsb'_append_eq_right
  case noDs => simp [descriptorOutput51to48, leafShareability, h]
  case noPnch => simp [descriptorProtected, h]

end Sys2Proof.Machine

/-! PROOFS of the statement on the instruction a step fetches and runs (R164, R165, R184, R204, R226). -/

namespace Sys2Proof.Machine

/-! ## The fetched instruction (R164, R165, R184, R204, R226) -/

/-- R164: the four bytes of a word, little-endian, spell the word. -/
theorem wordOfBytes_bytesOfWord (w : InstrWord) :
    wordOfBytes (w.extractLsb' 0 8) (w.extractLsb' 8 8) (w.extractLsb' 16 8) (w.extractLsb' 24 8) = w := by
  simp only [wordOfBytes]
  bv_normalize

/-- The fixed bits of a word made of fields. -/
theorem wordOfFields_fixedBits (f : WordFields) : (wordOfFields f).extractLsb' 22 10 = fixedBits := by
  simp only [wordOfFields]
  bv_normalize

/-- R182, R183, R191: a register's tuple names that register. -/
theorem sysRegOf_sysRegTuple (r : SysReg) : sysRegOf (sysRegTuple r) = some r := by
  cases r <;> rfl

/-- R181: a direction's L selects that direction. -/
theorem directionOf_directionBit (d : Direction) : directionOf (directionBit d) = d := by
  cases d <;> rfl

/-- An instruction is its direction, its register and its operand (R180). -/
theorem instrOf_parts (i : Instr) : instrOf (instrDirection i) (instrSysReg i) (instrOperand i) = i := by
  cases i <;> rfl

/-- The operand of a well-formed instruction fits its field. -/
theorem instrOperand_lt {i : Instr} (h : WellFormed i) : instrOperand i < 32 := by
  cases i <;> exact of_decide_eq_true h

/-- R185: the word of a well-formed instruction spells it. -/
theorem decodeWord_encode {i : Instr} (h : WellFormed i) : decodeWord (encode i) = some i := by
  have hrt : (BitVec.ofNat 5 (instrOperand i)).toNat = instrOperand i := by
    rw [BitVec.toNat_ofNat, Nat.mod_eq_of_lt (instrOperand_lt h)]
  rw [decodeWord, encode, if_pos (wordOfFields_fixedBits _), Laws.wordFields_wordOfFields]
  simp only [sysRegOf_sysRegTuple, Option.map_some, directionOf_directionBit, hrt, instrOf_parts]

/-- R164, R185: the bytes of a well-formed instruction decode to it, whatever follows them. -/
theorem decode_encodeBytes_append {i : Instr} (h : WellFormed i) (rest : List Byte) :
    decode (encodeBytes i ++ rest) = .ok (i, rest) := by
  simp only [encodeBytes, bytesOfWord, List.cons_append, List.nil_append, decode, wordOfBytes_bytesOfWord,
    decodeWord_encode h]

/-- Log 24: with the regime disabled a fetch reads at the plain address and leaves the state. -/
theorem fetchAccess_of_disabled {s : State} (hr : s.regimeEnabled = false) :
    s.fetchAccess = .next (s.plainFetchAddress, s) := by
  unfold State.fetchAccess State.plainFetchAddress
  split
  · rw [accessEL3_eq_checkTags hr, checkTags_of_not_mtxActs (mtxActs_instruction _)]
  · rfl

/-- R226: a fetch with the regime disabled answers the bytes memory holds at the plain address. -/
theorem fetch_of_readBytes {s : State} {bs : List Byte} (hn : s.pstate.nRW = false) (ha : pcAligned s.pc = true)
    (hr : s.regimeEnabled = false) (hb : Memory.readBytes s.mem s.plainFetchAddress instrBytes = .ok bs) :
    s.fetch = .next (bs, s) := by
  simp only [State.fetch, hn, ha, Bool.not_true, Bool.false_eq_true, if_false, fetchAccess_of_disabled hr, hb]

/-- Settles O49: the fetch answers the instruction's bytes and leaves the state, and the bytes decode to the
instruction. -/
theorem stepRunsTheFetchedInstruction : Obligations.StepRunsTheFetchedInstruction := by
  intro s i hev hn ha hr hwf hb
  have hfetch : s.fetch = .next (encodeBytes i, s) := fetch_of_readBytes hn ha hr hb
  have hdecode : decode (encodeBytes i) = .ok (i, []) := by
    simpa using decode_encodeBytes_append hwf []
  simp only [step, hev, stepInstr, hfetch, runBytes, hdecode]

end Sys2Proof.Machine

/-! PROOFS of the statements on the decoder and the encoder (R164, R180 to R185, R191), and on where no instruction
completes (R188, R189, R204, R240). -/

namespace Sys2Proof.Machine

/-! ## A word and its fields (R184) -/

/-- R184: a word with the fixed bits is the word of its fields, so the fields drop no bit. -/
theorem wordOfFields_wordFields {w : InstrWord} (h : w.extractLsb' 22 10 = fixedBits) :
    wordOfFields (wordFields w) = w := by
  simp only [wordOfFields, wordFields, ← h]
  bv_normalize

/-- R185: under the mask a word loses its operand alone. -/
theorem wordOfFields_and_mask (f : WordFields) :
    wordOfFields f &&& 0xFFFFFFE0 = wordOfFields { f with rt := 0 } := by
  have hmask : (0xFFFFFFE0 : InstrWord) = BitVec.allOnes 27 ++ 0#5 := by decide
  rw [wordOfFields, hmask, BitVec.and_append, BitVec.and_allOnes, BitVec.and_zero]
  rfl

/-- R184: the low five bits of a word are its operand. -/
theorem wordOfFields_and_operandMask (f : WordFields) : wordOfFields f &&& 0x1F = f.rt.setWidth 32 := by
  have hmask : (0x1F : InstrWord) = 0#27 ++ BitVec.allOnes 5 := by decide
  rw [wordOfFields, hmask, BitVec.and_append, BitVec.and_allOnes, BitVec.and_zero,
    BitVec.setWidth_eq_append (by decide)]
  rfl

/-- The two masks cover the word. -/
theorem word_eq_of_masks {v w : InstrWord} (hmatch : v &&& 0xFFFFFFE0 = w &&& 0xFFFFFFE0)
    (hoperand : v &&& 0x1F = w &&& 0x1F) : v = w := by
  have hsplit (u : InstrWord) : u = (u &&& 0xFFFFFFE0) ||| (u &&& 0x1F) := by
    rw [← BitVec.and_or_distrib_left]
    exact BitVec.and_allOnes.symm
  rw [hsplit v, hsplit w, hmatch, hoperand]

/-! ## The decoder answers what the encoder spells (R185, R191) -/

/-- R182, R183: the register a tuple names has that tuple. -/
theorem sysRegTuple_of_sysRegOf {p : SysRegTuple} {r : SysReg} (h : sysRegOf p = some r) : sysRegTuple r = p := by
  unfold sysRegOf at h
  split at h
  · cases h
    exact (‹p = _›).symm
  · split at h
    · cases h
      exact (‹p = _›).symm
    · cases h

/-- R184: L is the bit of the direction it selects. -/
theorem directionBit_directionOf (l : BitVec 1) : directionBit (directionOf l) = l := by
  revert l
  decide

section
variable (d : Direction) (r : SysReg) (t : Nat)

@[simp] theorem instrDirection_instrOf : instrDirection (instrOf d r t) = d := by cases d <;> cases r <;> rfl

@[simp] theorem instrSysReg_instrOf : instrSysReg (instrOf d r t) = r := by cases d <;> cases r <;> rfl

@[simp] theorem instrOperand_instrOf : instrOperand (instrOf d r t) = t := by cases d <;> cases r <;> rfl

end

/-- An instruction is well formed exactly when its operand fits the field Rt. -/
theorem wellFormed_iff {i : Instr} : WellFormed i ↔ instrOperand i < 32 := by
  cases i <;> exact decide_eq_true_iff

/-- R185, R191: a word spells an instruction exactly when it is the word of that well-formed instruction. -/
theorem decodeWord_eq_some_iff {w : InstrWord} {i : Instr} :
    decodeWord w = some i ↔ WellFormed i ∧ encode i = w := by
  constructor
  · intro h
    unfold decodeWord at h
    split at h
    · rename_i hfixed
      obtain ⟨r, hr, rfl⟩ := Option.map_eq_some_iff.mp h
      refine ⟨wellFormed_iff.mpr (by simpa using (wordFields w).rt.isLt), ?_⟩
      simpa [encode, directionBit_directionOf, sysRegTuple_of_sysRegOf hr] using wordOfFields_wordFields hfixed
    · cases h
  · rintro ⟨hwf, rfl⟩
    exact decodeWord_encode hwf

/-- Settles O1: the bytes of a word spell the word, whose fields are those it was made of. -/
theorem decodeInvertsEncode : Obligations.DecodeInvertsEncode :=
  fun _ rest hwf => decode_encodeBytes_append hwf rest

/-- Settles O2: the fixed bits and the fields of a word are all of it, and the tuple and L of a word that decodes are those
of the register and the direction it decodes to. -/
theorem encodeInvertsDecode : Obligations.EncodeInvertsDecode :=
  fun _ _ h => decodeWord_eq_some_iff.mp h

/-! ## Mask and match (R185) -/

/-- The match of R185 for an instruction: its word with the operand cleared. -/
def instrMatch (i : Instr) : InstrWord :=
  wordOfFields { l := directionBit (instrDirection i), tuple := sysRegTuple (instrSysReg i), rt := 0 }

section
variable (t : Nat)

@[simp] theorem instrMatch_mrsTcrEL3 : instrMatch (.mrsTcrEL3 t) = 0xD53E2040 := by
  simp only [instrMatch, instrDirection, instrSysReg]
  decide

@[simp] theorem instrMatch_msrTcrEL3 : instrMatch (.msrTcrEL3 t) = 0xD51E2040 := by
  simp only [instrMatch, instrDirection, instrSysReg]
  decide

@[simp] theorem instrMatch_mrsSpsrEL3 : instrMatch (.mrsSpsrEL3 t) = 0xD53E4000 := by
  simp only [instrMatch, instrDirection, instrSysReg]
  decide

@[simp] theorem instrMatch_msrSpsrEL3 : instrMatch (.msrSpsrEL3 t) = 0xD51E4000 := by
  simp only [instrMatch, instrDirection, instrSysReg]
  decide

end

/-- The word of an instruction under the mask is its match. -/
theorem encode_and_mask (i : Instr) : encode i &&& 0xFFFFFFE0 = instrMatch i :=
  wordOfFields_and_mask _

/-- The low five bits of the word of a well-formed instruction are its operand. -/
theorem encode_and_operandMask {i : Instr} (h : WellFormed i) : (encode i &&& 0x1F).toNat = instrOperand i := by
  have hlt : instrOperand i < 32 := instrOperand_lt h
  rw [encode, wordOfFields_and_operandMask, BitVec.toNat_setWidth, BitVec.toNat_ofNat]
  omega

/-- R185: a word spells an instruction exactly when it has its match under the mask and its operand in the bits [4:0]. -/
theorem decodeWord_eq_some_iff_mask {w : InstrWord} {i : Instr} :
    decodeWord w = some i ↔ w &&& 0xFFFFFFE0 = instrMatch i ∧ instrOperand i = (w &&& 0x1F).toNat := by
  rw [decodeWord_eq_some_iff]
  constructor
  · rintro ⟨hwf, rfl⟩
    exact ⟨encode_and_mask i, (encode_and_operandMask hwf).symm⟩
  · rintro ⟨hmatch, hoperand⟩
    have hwf : WellFormed i := by
      have hle : (w &&& 0x1F).toNat ≤ 31 := Nat.and_le_right
      exact wellFormed_iff.mpr (by omega)
    refine ⟨hwf, word_eq_of_masks ?_ (BitVec.eq_of_toNat_eq ?_)⟩
    · rw [encode_and_mask, hmatch]
    · rw [encode_and_operandMask hwf, hoperand]

/-- Settles O3: the rule of mask and match, at each of the four instructions. -/
theorem wordsSpellByMaskAndMatch : Obligations.WordsSpellByMaskAndMatch :=
  fun _ t => ⟨instrMatch_mrsTcrEL3 t ▸ decodeWord_eq_some_iff_mask, instrMatch_msrTcrEL3 t ▸ decodeWord_eq_some_iff_mask,
    instrMatch_mrsSpsrEL3 t ▸ decodeWord_eq_some_iff_mask, instrMatch_msrSpsrEL3 t ▸ decodeWord_eq_some_iff_mask⟩

section
variable {w : InstrWord}

/-- R185: a word with none of the four matches spells no instruction. -/
theorem decodeWord_eq_none_of_mask (hmrsTcr : w &&& 0xFFFFFFE0 ≠ 0xD53E2040) (hmsrTcr : w &&& 0xFFFFFFE0 ≠ 0xD51E2040)
    (hmrsSpsr : w &&& 0xFFFFFFE0 ≠ 0xD53E4000) (hmsrSpsr : w &&& 0xFFFFFFE0 ≠ 0xD51E4000) : decodeWord w = none := by
  refine Option.eq_none_iff_forall_ne_some.mpr fun i hi => ?_
  have hmatch : w &&& 0xFFFFFFE0 = instrMatch i := (decodeWord_eq_some_iff_mask.mp hi).1
  cases i with
  | mrsTcrEL3 t => exact hmrsTcr (hmatch.trans (instrMatch_mrsTcrEL3 t))
  | msrTcrEL3 t => exact hmsrTcr (hmatch.trans (instrMatch_msrTcrEL3 t))
  | mrsSpsrEL3 t => exact hmrsSpsr (hmatch.trans (instrMatch_mrsSpsrEL3 t))
  | msrSpsrEL3 t => exact hmsrSpsr (hmatch.trans (instrMatch_msrSpsrEL3 t))

/-- R164, R185: the bytes of a word that spells no instruction are rejected under the word's name. -/
theorem decode_bytesOfWord_append_of_none (h : decodeWord w = none) (rest : List Byte) :
    decode (bytesOfWord w ++ rest) = .error (.notInSpec w) := by
  simp only [bytesOfWord, List.cons_append, List.nil_append, decode, wordOfBytes_bytesOfWord, h]

end

/-- Running bytes the decoder rejects is the refusal that carries its error. -/
theorem runBytes_of_decode_error {bs : List Byte} {e : DecodeError} (h : decode bs = .error e) (s : State) :
    runBytes bs s = .refused (.undecodable e) := by
  simp only [runBytes, h]

/-- Settles O4: such a word spells no instruction, so its bytes decode to the error, which running them carries. -/
theorem otherWordsAreRefused : Obligations.OtherWordsAreRefused := by
  intro w rest s hmrsTcr hmsrTcr hmrsSpsr hmsrSpsr
  have hreject := decode_bytesOfWord_append_of_none (decodeWord_eq_none_of_mask hmrsTcr hmsrTcr hmrsSpsr hmsrSpsr)
  exact ⟨hreject rest, runBytes_of_decode_error (by simpa using hreject []) s⟩

/-- Settles O5: each vector by its mask, its match and its low five bits. -/
theorem sampleWordsDecode : Obligations.SampleWordsDecode := by
  refine ⟨?_, ?_, ?_, ?_, ?_, ?_, ?_, ?_⟩
  iterate 4 exact decodeWord_eq_some_iff_mask.mpr ⟨by decide, by decide⟩
  all_goals exact decodeWord_eq_none_of_mask (by decide) (by decide) (by decide) (by decide)

/-! ## Where no instruction completes (R188, R189, R204, R240) -/

section
variable {s : State}

/-- R204: where the checks answer UNDEFINED, every instruction is the fault that names it. -/
theorem exec_of_undefined (h : s.accessVerdict = .undefined) (i : Instr) : exec i s = .fault (.undefined i) := by
  cases i <;> simp only [exec, execMrsTcrEL3, execMsrTcrEL3, execMrsSpsrEL3, execMsrSpsrEL3, h]

/-- D17: where the checks answer AArch32, every instruction is refused. -/
theorem exec_of_aarch32 (h : s.accessVerdict = .aarch32) (i : Instr) : exec i s = .refused .aarch32State := by
  cases i <;> simp only [exec, execMrsTcrEL3, execMsrTcrEL3, execMrsSpsrEL3, execMsrSpsrEL3, h]

/-- D17: in AArch32 state nothing is fetched. -/
theorem fetch_of_aarch32 (h : s.pstate.nRW = true) : s.fetch = .refused .aarch32State := by
  simp only [State.fetch, h, if_true]

end

/-- Settles O14: the checks of R204, which the four instructions share, answer UNDEFINED before the write trap is looked
at. -/
theorem accessBelowEL3IsUndefined : Obligations.AccessBelowEL3IsUndefined :=
  fun i _ hn hlevel => exec_of_undefined (accessVerdict_undefined.mpr ⟨hn, hlevel⟩) i

/-- Settles O15: the checks refuse the instruction, and the fetch refuses the step. -/
theorem aArch32StateIsRefused : Obligations.AArch32StateIsRefused := by
  intro i s hn
  refine ⟨exec_of_aarch32 (accessVerdict_aarch32.mpr hn) i, fun hev => ?_⟩
  simp only [step, hev, stepInstr, fetch_of_aarch32 hn]

/-- Settles O56: a step without an event that answers a next state ran an instruction at EL3, and its fetch has changed
memory alone. -/
theorem noInstructionCompletesBelowEL3 : Obligations.NoInstructionCompletesBelowEL3 := by
  rintro s hev hlevel ⟨s', h⟩
  rcases step_next h with ⟨e, rest, hcons, -⟩ | ⟨-, bs, s₁, i, rest, hf, -, hx⟩
  · exact List.cons_ne_nil e rest (hcons.symm.trans hev)
  · obtain ⟨hat, -⟩ := exec_next hx
    obtain ⟨u, rfl⟩ := fetch_updates hf
    obtain ⟨-, hel3, -⟩ := State.withUpdates_atEL3.mp hat
    exact hlevel hel3

end Sys2Proof.Machine

/-! PROOFS of the statements on the four instructions at EL3: what each writes and leaves alone (R200 to R205), that a read
returns what was written (R206), and that a step runs what its fetch reads (R204, R226). -/

namespace Sys2Proof.Machine

/-! ## The general registers over the other writes (R22) -/

/-- Completing an instruction touches no general register. -/
@[simp] theorem State.complete_readX (s : State) (t : Nat) : s.complete.readX t = s.readX t := rfl

/-- R205: a write of TCR_EL3 touches no general register. -/
@[simp] theorem State.writeTcr_readX (s : State) (v : Word) (t : Nat) : (s.writeTcr v).readX t = s.readX t := rfl

/-- R205: a write of SPSR_EL3 touches no general register. -/
@[simp] theorem State.writeSpsr_readX (s : State) (v : Word) (t : Nat) : (s.writeSpsr v).readX t = s.readX t := rfl

/-- An entry to EL3 touches no general register. -/
@[simp] theorem State.takeExceptionToEL3_readX (s : State) (k : ExceptionKind) (y : Word) (t : Nat) :
    (s.takeExceptionToEL3 k y).readX t = s.readX t := rfl

section
variable {s s' : State} {t : Nat}

/-- R201, R204: the trap is not set unless FEAT_FGWTE3 is implemented and FGWTE3_EL3.TCR_EL3 is 1. -/
theorem tcrWriteTraps_eq_false_iff : s.tcrWriteTraps = false ↔ ¬ (s.cfg.featFgwte3 = true ∧ s.fgwte3Tcr = true) := by
  rw [State.tcrWriteTraps, ← Bool.not_eq_true, Bool.and_eq_true]

/-! ## The four instructions at EL3 (R200 to R203) -/

/-- R200, R202, R205: an instruction that writes x[t] and completes reads back there and leaves everything else alone. -/
theorem exec_writesX_alone {i : Instr} {v : Word} (h : exec i s = .next (s.writeX t v).complete) (ht : t < 31) :
    ∃ s', exec i s = .next s' ∧ s'.readX t = v ∧ (∀ k, k ≠ t → s'.readX k = s.readX k) ∧
      (∀ a, Memory.read s'.mem a = Memory.read s.mem a) ∧
      s' = { s with x := s'.x, pc := s'.pc, draws := s'.draws } :=
  ⟨_, h, s.readX_writeX_same v ht, fun _ hk => s.readX_writeX_other v hk, fun _ => rfl, rfl⟩

/-- R200: MRS TCR_EL3 leaves the read view in its register. -/
theorem readX_of_exec_mrsTcrEL3 (h : exec (.mrsTcrEL3 t) s = .next s') (ht : t < 31) :
    s'.readX t = tcrReadView s.cfg s.tcrEL3 := by
  obtain ⟨hat, -⟩ := exec_next h
  rw [exec_mrsTcrEL3_of_atEL3 hat] at h
  cases h
  exact s.readX_writeX_same _ ht

/-- R202: MRS SPSR_EL3 leaves the read view in its register. -/
theorem readX_of_exec_mrsSpsrEL3 (h : exec (.mrsSpsrEL3 t) s = .next s') (ht : t < 31) :
    s'.readX t = spsrReadView s.cfg s.spsrEL3 := by
  obtain ⟨hat, -⟩ := exec_next h
  rw [exec_mrsSpsrEL3_of_atEL3 hat] at h
  cases h
  exact s.readX_writeX_same _ ht

/-- R201: an untrapped MSR TCR_EL3 stores its operand. -/
theorem tcrEL3_of_exec_msrTcrEL3 (h : exec (.msrTcrEL3 t) s = .next s') (htraps : s.tcrWriteTraps = false) :
    s'.tcrEL3 = s.readX t := by
  obtain ⟨hat, -⟩ := exec_next h
  rw [exec_msrTcrEL3_of_atEL3 hat htraps] at h
  cases h
  rfl

/-- R203: MSR SPSR_EL3 stores its operand. -/
theorem spsrEL3_of_exec_msrSpsrEL3 (h : exec (.msrSpsrEL3 t) s = .next s') : s'.spsrEL3 = s.readX t := by
  obtain ⟨hat, -⟩ := exec_next h
  rw [exec_msrSpsrEL3_of_atEL3 hat] at h
  cases h
  rfl

end

/-- Settles O6: at EL3 the instruction is one write of x[t], which it completes. -/
theorem mrsTcrEL3WritesReadView : Obligations.MrsTcrEL3WritesReadView :=
  fun _ t hat ht => exec_writesX_alone (exec_mrsTcrEL3_of_atEL3 hat t) ht

/-- Settles O7: at EL3 with no trap set the instruction is one write of TCR_EL3, which `History` gains. -/
theorem msrTcrEL3StoresAll64Bits : Obligations.MsrTcrEL3StoresAll64Bits :=
  fun _ t hat htraps =>
    ⟨_, exec_msrTcrEL3_of_atEL3 hat (tcrWriteTraps_eq_false_iff.mpr htraps) t, rfl, rfl, fun _ => rfl, rfl⟩

/-- Settles O8: at EL3 the instruction is one write of x[t], which it completes. -/
theorem mrsSpsrEL3WritesReadView : Obligations.MrsSpsrEL3WritesReadView :=
  fun _ t hat ht => exec_writesX_alone (exec_mrsSpsrEL3_of_atEL3 hat t) ht

/-- Settles O9: at EL3 the instruction is one write of SPSR_EL3, whatever the trap bit holds. -/
theorem msrSpsrEL3StoresAll64Bits : Obligations.MsrSpsrEL3StoresAll64Bits :=
  fun _ t hat => ⟨_, exec_msrSpsrEL3_of_atEL3 hat t, rfl, fun _ => rfl, rfl⟩

/-- Settles O13: the read returns the view of what the first instruction stored, under a configuration it has kept. -/
theorem readAfterWriteReturnsWritten : Obligations.ReadAfterWriteReturnsWritten := by
  intro s s₁ s₂ t u hu
  constructor
  · intro htraps hwrite hread
    rw [readX_of_exec_mrsTcrEL3 hread hu, exec_keeps_cfg hwrite, tcrEL3_of_exec_msrTcrEL3 hwrite htraps]
  · intro hwrite hread
    rw [readX_of_exec_mrsSpsrEL3 hread hu, exec_keeps_cfg hwrite, spsrEL3_of_exec_msrSpsrEL3 hwrite]

/-! ## What the four instructions leave alone (R205) -/

section
variable {i : Instr} {s s' : State}

/-- R205: what no instruction but a trapped write of TCR_EL3 changes, whichever it is. -/
theorem exec_untrapped_keeps (h : exec i s = .next s') (huntrapped : s.tcrWriteTraps = true → ∀ t, i ≠ .msrTcrEL3 t) :
    s'.pstate = s.pstate ∧ s'.cfg = s.cfg ∧ s'.fgwte3Tcr = s.fgwte3Tcr ∧ s'.ttbr0EL3 = s.ttbr0EL3 ∧
    s'.regimeEnabled = s.regimeEnabled ∧ s'.vbarEL3 = s.vbarEL3 ∧ s'.elrEL3 = s.elrEL3 ∧ s'.esrEL3 = s.esrEL3 ∧
    s'.events = s.events := by
  obtain ⟨-, hcase⟩ := exec_next h
  rcases hcase with ⟨t, -, rfl⟩ | ⟨t, -, -, rfl⟩ | ⟨t, hi, ht, -⟩ | ⟨t, -, rfl⟩ | ⟨t, -, rfl⟩
  · simp
  · simp
  · exact absurd hi (huntrapped ht t)
  · simp
  · simp

/-- R205: an instruction writes no general register but the one an MRS names. -/
theorem exec_readX {k : Nat} (h : exec i s = .next s') (hmrsTcr : i ≠ .mrsTcrEL3 k) (hmrsSpsr : i ≠ .mrsSpsrEL3 k) :
    s'.readX k = s.readX k := by
  obtain ⟨-, hcase⟩ := exec_next h
  rcases hcase with ⟨t, rfl, rfl⟩ | ⟨t, -, -, rfl⟩ | ⟨t, -, -, -, rfl⟩ | ⟨t, rfl, rfl⟩ | ⟨t, -, rfl⟩
  · have hk : k ≠ t := fun hkt => hmrsTcr (hkt ▸ rfl)
    exact s.readX_writeX_other _ hk
  · simp
  · simp
  · have hk : k ≠ t := fun hkt => hmrsSpsr (hkt ▸ rfl)
    exact s.readX_writeX_other _ hk
  · simp

/-- R31, R170, R205: only MSR TCR_EL3 writes TCR_EL3 or appends to `History`. -/
theorem exec_tcrEL3_history_of_ne (h : exec i s = .next s') (hi : ∀ t, i ≠ .msrTcrEL3 t) :
    s'.tcrEL3 = s.tcrEL3 ∧ s'.history = s.history := by
  obtain ⟨-, hcase⟩ := exec_next h
  rcases hcase with ⟨t, -, rfl⟩ | ⟨t, hmsr, -⟩ | ⟨t, hmsr, -⟩ | ⟨t, -, rfl⟩ | ⟨t, -, rfl⟩
  · exact ⟨rfl, rfl⟩
  · exact absurd hmsr (hi t)
  · exact absurd hmsr (hi t)
  · exact ⟨rfl, rfl⟩
  · exact ⟨rfl, rfl⟩

/-- R90, R205: only MSR SPSR_EL3 writes SPSR_EL3, and the trap. -/
theorem exec_spsrEL3_of_ne (h : exec i s = .next s') (huntrapped : s.tcrWriteTraps = true → ∀ t, i ≠ .msrTcrEL3 t)
    (hi : ∀ t, i ≠ .msrSpsrEL3 t) : s'.spsrEL3 = s.spsrEL3 := by
  rcases exec_spsrEL3 h with ⟨t, hmsr, -⟩ | ⟨t, hmsr, ht, -⟩ | hsame
  · exact absurd hmsr (hi t)
  · exact absurd hmsr (huntrapped ht t)
  · exact hsame

end

/-- Settles O12: PSTATE, memory and the fields no untrapped instruction writes, and then each register by the one instruction
that names it. -/
theorem instructionFrame : Obligations.InstructionFrame := by
  intro i s s' h huntrapped
  obtain ⟨hpstate, hothers⟩ := exec_untrapped_keeps h huntrapped
  have hmem : ∀ a, Memory.read s'.mem a = Memory.read s.mem a := fun a => by rw [exec_mem h]
  exact ⟨hpstate, hmem, fun _ => exec_readX h, exec_tcrEL3_history_of_ne h, exec_spsrEL3_of_ne h huntrapped, hothers⟩

/-! ## A step runs what its fetch reads (R204, R226) -/

section
variable {s s₁ : State} {bs rest : List Byte} {i : Instr}

/-- R227: with no event to come a step is an instruction step. -/
theorem step_of_noEvent (h : NoEvent s) : step s = stepInstr s := by
  simp only [step, h]

/-- R226: an instruction step runs the bytes its fetch answers, in the state the fetch leaves. -/
theorem stepInstr_of_fetch (h : s.fetch = .next (bs, s₁)) : stepInstr s = runBytes bs s₁ := by
  simp only [stepInstr, h]

/-- R204: running bytes that decode is exec of the instruction they spell. -/
theorem runBytes_of_decode (h : decode bs = .ok (i, rest)) (s : State) : runBytes bs s = exec i s := by
  simp only [runBytes, h]

end

/-- Settles O50: the step is its fetch, the decoding and exec in turn, and the fetch has changed memory alone. -/
theorem stepRunsWhatItsFetchReads : Obligations.StepRunsWhatItsFetchReads := by
  intro s s₁ bs rest i hev hfetch hdecode
  constructor
  · calc step s = stepInstr s := step_of_noEvent hev
      _ = runBytes bs s₁ := stepInstr_of_fetch hfetch
      _ = exec i s₁ := runBytes_of_decode hdecode s₁
  · obtain ⟨u, rfl⟩ := fetch_updates hfetch
    rfl

end Sys2Proof.Machine

/-! PROOFS of the statements on exceptions: what an entry to EL3 saves and where it goes (R221, R222, R230, R231, R239), what
an exception return restores and when it is illegal (R232 to R238), the fault of a small T0SZ (R223), and where the
Exception level changes (R240). -/

namespace Sys2Proof.Machine

/-! ## A field of a register put together from placed bits and fields (R7) -/

/-- A field of a disjunction is made bit by bit. -/
theorem slice_or (a b : Word) (lo width : Nat) : slice (a ||| b) lo width = slice a lo width ||| slice b lo width :=
  slice_eq_of_bits fun k hk => by simp

/-- A placed bit is in no field that leaves its position out. -/
theorem slice_placeBit_outside (b : Bool) {n lo width : Nat} (h : n < lo ∨ lo + width ≤ n) :
    slice (placeBit b n) lo width = 0 :=
  slice_eq_of_bits fun k hk => by simp [show lo + k ≠ n by omega]

/-- A placed field reads back. -/
theorem slice_placeField_same {width : Nat} (v : BitVec width) {lo : Nat} (h : lo + width ≤ 64) :
    slice (placeField v lo) lo width = v :=
  slice_eq_of_bits fun k hk => by simp [show lo + k < 64 by omega, hk]

/-- A placed field is in no field above or below it. -/
theorem slice_placeField_beside {width : Nat} (v : BitVec width) {place lo width' : Nat}
    (h : place + width ≤ lo ∨ lo + width' ≤ place) : slice (placeField v place) lo width' = 0 := by
  refine slice_eq_of_bits fun k hk => ?_
  rcases h with habove | hbelow
  · simp [BitVec.getLsbD_of_ge v (lo + k - place) (by omega)]
  · simp [show ¬ place ≤ lo + k by omega]

/-! ## The saved PSTATE (R230, R231) -/

/-- R91: an entry from AArch64 state saves in the AArch64 layout. -/
theorem savedPState_of_aarch64 (c : Cfg) {p : PState} (h : p.nRW = false) : savedPState c p = spsrOfAArch64 c p := by
  rw [savedPState, h, if_neg Bool.false_ne_true]

/-- R91: an entry from AArch32 state saves in the AArch32 layout. -/
theorem savedPState_of_aarch32 (c : Cfg) {p : PState} (h : p.nRW = true) : savedPState c p = spsrOfAArch32 c p := by
  rw [savedPState, h, if_pos rfl]

/-- Settles O27: of the placements that make up the AArch64 layout, a bit or field sees its own and none beside it. -/
theorem entryFromAArch64SavesPState : Obligations.EntryFromAArch64SavesPState := by
  intro c p hp
  rw [savedPState_of_aarch64 c hp]
  simp [spsrOfAArch64, tcoLive, slice_or, slice_placeBit_outside, slice_placeField_same, slice_placeField_beside]

/-- Settles O28: of the placements that make up the AArch32 layout, a bit or field sees its own and none beside it. -/
theorem entryFromAArch32SavesPState : Obligations.EntryFromAArch32SavesPState := by
  intro c p hp
  rw [savedPState_of_aarch32 c hp]
  simp [spsrOfAArch32, slice_or, slice_placeBit_outside, slice_placeField_same, slice_placeField_beside]

/-- R140: M[3:2] of the AArch64 layout. -/
theorem slice_spsrOfAArch64_el (c : Cfg) (p : PState) : slice (spsrOfAArch64 c p) 2 2 = p.el.toBits := by
  simp [spsrOfAArch64, slice_or, slice_placeBit_outside, slice_placeField_same, slice_placeField_beside]

/-- R140: M[3:0] of the AArch64 layout. -/
theorem slice_spsrOfAArch64_mode (c : Cfg) (p : PState) :
    slice (spsrOfAArch64 c p) 0 4 = p.el.toBits ++ 0#1 ++ BitVec.ofBool p.sp := by
  have hbit : ∀ k < 4, bit (spsrOfAArch64 c p) k =
      ((decide (2 ≤ k) && p.el.toBits.getLsbD (k - 2)) || (p.sp && decide (k = 0))) := by
    intro k hk
    interval_cases k <;> simp [spsrOfAArch64]
  have hmode : ∀ (el : EL) (sp : Bool) (k : Fin 4), ((decide (2 ≤ k.val) && el.toBits.getLsbD (k.val - 2)) ||
      (sp && decide (k.val = 0))) = (el.toBits ++ 0#1 ++ BitVec.ofBool sp)[k.val] := by
    rintro (_ | _ | _ | _) <;> decide
  exact slice_eq_of_bits fun k hk => by rw [Nat.zero_add, hbit k hk, hmode p.el p.sp ⟨k, hk⟩]

/-! ## An entry to EL3 (R221, R222, R230, R239) -/

/-- The fields every syndrome of a trapped access shares: both registers are in op0 = 3, op1 = 6, CRm = 0 (R182, R183). -/
theorem sysRegTuple_common (r : SysReg) :
    (sysRegTuple r).op0 = 0b11 ∧ (sysRegTuple r).op1 = 0b110 ∧ (sysRegTuple r).crm = 0b0000 := by
  cases r <;> exact ⟨rfl, rfl, rfl⟩

/-- Settles O18: a field of the syndrome sees its own placement and none beside it. -/
theorem trapSyndromeFields : Obligations.TrapSyndromeFields := by
  intro i hwf
  have hlt : instrOperand i < 32 := instrOperand_lt hwf
  obtain ⟨hop0, hop1, hcrm⟩ := sysRegTuple_common (instrSysReg i)
  simp [sysAccessSyndrome, sysAccessCode, slice_or, slice_placeBit_outside, slice_placeField_same,
    slice_placeField_beside, hop0, hop1, hcrm, hlt]

section
variable {s : State}

/-- D6: without R239's assumption an entry stops, and has changed SPSR_EL3 alone. -/
theorem exceptionToEL3_of_not_assumed (h : s.cfg.assumesEntryR239 = false) (k : ExceptionKind) (y : Word)
    (stop : State → Fault) :
    s.exceptionToEL3 k y stop = .fault (stop { s with spsrEL3 := savedPState s.cfg s.pstate }) := by
  rw [State.exceptionToEL3, h, if_neg Bool.false_ne_true]
  rfl

/-- R239: with the assumption an entry goes on at the vector. -/
theorem exceptionToEL3_of_assumed (h : s.cfg.assumesEntryR239 = true) (k : ExceptionKind) (y : Word)
    (stop : State → Fault) : s.exceptionToEL3 k y stop = .next (s.takeExceptionToEL3 k y) := by
  rw [State.exceptionToEL3, h, if_pos rfl]

/-- R221: under the trap MSR TCR_EL3 is the system access trap that names it. -/
theorem exec_msrTcrEL3_of_trap (h : AtEL3 s) (hfeat : s.cfg.featFgwte3 = true) (htrap : s.fgwte3Tcr = true) (t : Nat) :
    exec (.msrTcrEL3 t) s = s.exceptionToEL3 .synchronous (sysAccessSyndrome (.msrTcrEL3 t))
      (.systemAccessTrap (.msrTcrEL3 t) .el3 0x18) := by
  have htraps : s.tcrWriteTraps = true := Bool.and_eq_true_iff.mpr ⟨hfeat, htrap⟩
  simp only [exec, execMsrTcrEL3, accessVerdict_permitted.mpr h, htraps, if_true, State.systemAccessTrap, sysAccessCode]

/-- A step whose next event is `e` handles it in the state without it (log 13). -/
theorem step_of_event {e : Event} {rest : List Event} (h : s.events = e :: rest) :
    step s = State.handleEvent { s with events := rest } e := by
  simp only [step, h]

/-- R231: an entry is possible with EL3, from AArch32 state where that is supported. -/
theorem canEnterEL3_iff :
    s.canEnterEL3 = true ↔ s.cfg.haveEL3 = true ∧ (s.pstate.nRW = true → s.cfg.aarch32Supported = true) := by
  cases h : s.pstate.nRW <;> simp [State.canEnterEL3, h]

/-- R230, R231: a step whose next event is an exception taken to EL3 is that entry, in the state without the event. -/
theorem step_of_exceptionEvent {k : ExceptionKind} {y : Word} {rest : List Event}
    (hev : s.events = .exceptionToEL3 k y :: rest) (hEL3 : s.cfg.haveEL3 = true)
    (h32 : s.pstate.nRW = true → s.cfg.aarch32Supported = true) :
    step s = State.exceptionToEL3 { s with events := rest } k y (.exceptionToEL3 k) :=
  (step_of_event hev).trans (if_pos (canEnterEL3_iff.mpr ⟨hEL3, h32⟩))

end

/-- Settles O16: both entries stop as every entry does without the assumption. -/
theorem entryWithoutAssumptionStopsWithSavedState : Obligations.EntryWithoutAssumptionStopsWithSavedState :=
  ⟨fun _ t hat hfeat htrap hassumes =>
    (exec_msrTcrEL3_of_trap hat hfeat htrap t).trans (exceptionToEL3_of_not_assumed hassumes _ _ _),
   fun s k y rest hev hEL3 h32 hassumes =>
    (step_of_exceptionEvent hev hEL3 h32).trans
      (exceptionToEL3_of_not_assumed (s := { s with events := rest }) hassumes k y _)⟩

/-- R239: the offset of a synchronous exception taken from EL3 in AArch64 state. -/
theorem vectorOffset_synchronous_of_atEL3 {s : State} (h : AtEL3 s) :
    vectorOffset s.pstate .synchronous = if s.pstate.sp then 0x200 else 0x000 := by
  obtain ⟨-, hel, hn⟩ := h
  simp [vectorOffset, hel, hn]

/-- Settles O17: the state is the whole entry, from EL3 in AArch64 state. -/
theorem trappedWriteEntersHandler : Obligations.TrappedWriteEntersHandler := by
  intro s t hat hfeat htrap hassumes
  have hlevel : slice (savedPState s.cfg s.pstate) 2 2 = 0b11 := by
    obtain ⟨-, hel, hn⟩ := hat
    rw [savedPState_of_aarch64 s.cfg hn, slice_spsrOfAArch64_el, hel]
    rfl
  refine ⟨_, (exec_msrTcrEL3_of_trap hat hfeat htrap t).trans (exceptionToEL3_of_assumed hassumes _ _ _), rfl, rfl, rfl,
    hlevel, rfl, rfl, rfl, rfl, rfl, rfl, rfl, rfl, ?_, rfl, fun _ => rfl⟩
  rw [← vectorOffset_synchronous_of_atEL3 hat]
  exact targetPc_holds s _ _ _

/-- Settles O36: the state is the whole entry, made without the event. -/
theorem exceptionEventEntersHandler : Obligations.ExceptionEventEntersHandler := by
  intro s k y rest hev hEL3 h32 hassumes
  have hstep : step s = .next (State.takeExceptionToEL3 { s with events := rest } k y) :=
    (step_of_exceptionEvent hev hEL3 h32).trans (exceptionToEL3_of_assumed (s := { s with events := rest }) hassumes k y _)
  refine ⟨_, hstep, rfl, rfl, rfl, rfl, rfl, rfl, rfl, rfl, rfl, ?_, rfl, rfl, rfl, rfl, fun _ => rfl⟩
  rw [BitVec.add_assoc]
  exact targetPc_holds s _ _ (s.vbarEL3 + vectorOffset s.pstate k)

/-- Settles O35: the second entry saves the PSTATE of the first, whose named fields are fixed. -/
theorem nestedEntryOverwritesSavedState : Obligations.NestedEntryOverwritesSavedState := by
  intro s k₁ k₂ y₁ y₂
  have hsaved : ((s.takeExceptionToEL3 k₁ y₁).takeExceptionToEL3 k₂ y₂).spsrEL3 =
      spsrOfAArch64 s.cfg (entryPState (s.draws + 1)) := 
    savedPState_of_aarch64 s.cfg (p := entryPState (s.draws + 1)) rfl
  rw [hsaved]
  refine ⟨rfl, slice_eq_of_bits fun k hk => ?_, slice_eq_of_bits fun k hk => ?_, slice_eq_of_bits fun k hk => ?_⟩
  all_goals interval_cases k <;> simp [spsrOfAArch64, entryPState, EL.toBits]

/-! ## An exception return from EL3 (R232 to R238) -/

@[simp] theorem EL.ofBits_toBits (el : EL) : EL.ofBits el.toBits = el := by
  cases el <;> rfl

@[simp] theorem EL.toBits_ofBits (v : BitVec 2) : (EL.ofBits v).toBits = v := by
  rcases twoBit_cases v with rfl | rfl | rfl | rfl <;> rfl

/-- R140: the number of EL3. -/
theorem EL.ofBits_eq_el3_iff {v : BitVec 2} : EL.ofBits v = .el3 ↔ v = 0b11 := by
  rcases twoBit_cases v with rfl | rfl | rfl | rfl <;> decide

section
variable {raw : Word}

/-- R140: the level returned to in the AArch64 layout. -/
theorem spsrTargetEL_of_aarch64 (h : bit raw 4 = false) : spsrTargetEL raw = EL.ofBits (slice raw 2 2) := by
  rw [spsrTargetEL, spsrIsAArch32, h, if_neg Bool.false_ne_true]

/-- R236, log 27: the level returned to in the AArch32 layout. -/
theorem spsrTargetEL_of_aarch32 (h : bit raw 4 = true) : spsrTargetEL raw = Config.aarch32ModeEL (slice raw 0 4) := by
  rw [spsrTargetEL, spsrIsAArch32, h, if_pos rfl]

/-- R236: the causes of an illegal return in the AArch64 layout. -/
theorem illegalReturn_iff_of_aarch64 {c : Cfg} (h : bit raw 4 = false) :
    illegalReturn c raw = true ↔
      slice raw 0 4 ∉ legalM64 ∨ implementedEL c (EL.ofBits (slice raw 2 2)) = false := by
  simp [illegalReturn, spsrIsAArch32, h, spsrTargetEL_of_aarch64 h]

/-- R236: the causes of an illegal return in the AArch32 layout. -/
theorem illegalReturn_iff_of_aarch32 {c : Cfg} (h : bit raw 4 = true) :
    illegalReturn c raw = true ↔ c.aarch32Supported = false ∨ slice raw 0 4 ∉ legalM32 ∨
      implementedEL c (Config.aarch32ModeEL (slice raw 0 4)) = false := by
  simp [illegalReturn, spsrIsAArch32, h, spsrTargetEL_of_aarch32 h, or_assoc]

/-- R91: a saved value in the AArch64 layout is restored as R232 says. -/
theorem restoredPState_of_aarch64 (h : bit raw 4 = false) (c : Cfg) (copySS copyPPEND : Bool) (p : PState) :
    restoredPState c raw copySS copyPPEND p = restoreAArch64 c raw copySS copyPPEND p := by
  rw [restoredPState, spsrIsAArch32, h, if_neg Bool.false_ne_true]

/-- R91: a saved value in the AArch32 layout is restored as R233 says. -/
theorem restoredPState_of_aarch32 (h : bit raw 4 = true) (c : Cfg) (copySS copyPPEND : Bool) (p : PState) :
    restoredPState c raw copySS copyPPEND p = restoreAArch32 c raw copySS p := by
  rw [restoredPState, spsrIsAArch32, h, if_pos rfl]

end

/-- R107: the three cases of PSTATE.E after a return, by the byte orders of the level returned to. -/
theorem restoredE_cases (c : Cfg) (target : EL) (saved : Bool) :
    (perEL c.bigEndian target = false → restoredE c target saved = false) ∧
    (perEL c.bigEndian target = true → perEL c.littleEndian target = false → restoredE c target saved = true) ∧
    (perEL c.bigEndian target = true → perEL c.littleEndian target = true → restoredE c target saved = saved) := by
  cases hbig : perEL c.bigEndian target <;> cases hlittle : perEL c.littleEndian target <;>
    simp [restoredE, hbig, hlittle]

/-- D20: a bit copied on a condition is itself or 0. -/
theorem and_eq_self_or_false (a b : Bool) : (a && b) = a ∨ (a && b) = false := by
  cases b <;> simp

section
variable {c : Cfg} {raw : Word} {copySS copyPPEND : Bool} {p : PState}

/-- R234: with FEAT_SEBEP PPEND is copied on its condition. -/
theorem restoreAArch64_ppend_of_sebep (h : c.featSebep = true) :
    (restoreAArch64 c raw copySS copyPPEND p).ppend = (bit raw 33 && copyPPEND) := if_pos h

/-- R232: without FEAT_SEBEP a return leaves PPEND alone. -/
theorem restoreAArch64_ppend_of_not_sebep (h : c.featSebep = false) :
    (restoreAArch64 c raw copySS copyPPEND p).ppend = p.ppend := if_neg (Bool.not_eq_true _ ▸ h)

end

section
variable {s : State}

/-- R236: an illegal return at EL3 is the fault that names the saved value. -/
theorem exceptionReturn_of_illegal (h : AtEL3 s) (hillegal : illegalReturn s.cfg s.spsrEL3 = true) :
    s.exceptionReturn = .fault (.illegalReturn s.spsrEL3) := by
  simp [State.exceptionReturn, canReturnFromEL3_iff.mpr h, hillegal]

/-- R232 to R237: a legal return at EL3 is made, and changes PSTATE, SPSR_EL3, the pc and the draw counter alone. -/
theorem exceptionReturn_of_legal (h : AtEL3 s) (hlegal : illegalReturn s.cfg s.spsrEL3 = false) :
    ∃ s', s.exceptionReturn = .next s' ∧
      s'.pstate = restoredPState s.cfg s.spsrEL3 (Config.unknownBit s.draws) (Config.unknownBit (s.draws + 1)) s.pstate ∧
      s'.spsrEL3 = Config.unknown64 s.draws ∧ s'.pc = s.returnPc ∧
      s' = { s with pstate := s'.pstate, spsrEL3 := s'.spsrEL3, pc := s'.pc, draws := s'.draws } :=
  ⟨s.returnedFromEL3, by simp [State.exceptionReturn, canReturnFromEL3_iff.mpr h, hlegal], rfl, rfl, rfl, rfl⟩

/-- R236: away from EL3 there is no exception return. -/
theorem exceptionReturn_of_not_atEL3 (h : ¬ AtEL3 s) :
    s.exceptionReturn = .refused (.eventNotPossible .exceptionReturn) := by
  simp [State.exceptionReturn, mt canReturnFromEL3_iff.mp h]

/-- R238: the pc after a return in the AArch64 layout. -/
theorem returnPc_holds_of_aarch64 (h : bit s.spsrEL3 4 = false) :
    PcHolds s.returnPc s.returnAddress
      (s.cfg.tbiClearsReturnPc && decide (slice s.spsrEL3 2 2 = 0b11) &&
        tbiApplies s.cfg (s.seenEffective s.draws) .instruction) := by
  have hlisted : (s.cfg.tbiClearsReturnPc && !spsrIsAArch32 s.spsrEL3 && decide (spsrTargetEL s.spsrEL3 = .el3)) =
      (s.cfg.tbiClearsReturnPc && decide (slice s.spsrEL3 2 2 = 0b11)) := by
    simp [spsrIsAArch32, h, spsrTargetEL_of_aarch64 h, EL.ofBits_eq_el3_iff]
  rw [State.returnPc, hlisted]
  exact targetPc_holds s _ _ _

/-- R238: the pc after a return in the AArch32 layout is the return address whole. -/
theorem returnPc_of_aarch32 (h : bit s.spsrEL3 4 = true) : s.returnPc = s.returnAddress := by
  simp [State.returnPc, State.targetPc, spsrIsAArch32, h]

end

/-- Settles O30: the restored PSTATE is R232's, field by field, and the pc R238's. -/
theorem returnToAArch64Restores : Obligations.ReturnToAArch64Restores := by
  intro s hat h4 hlegal
  obtain ⟨s', hnext, hpstate, hspsr, hpc, hframe⟩ := exceptionReturn_of_legal hat hlegal
  rw [restoredPState_of_aarch64 h4] at hpstate
  have hpcHolds := returnPc_holds_of_aarch64 h4
  rw [← hpc] at hpcHolds
  refine ⟨s', hnext, ?_⟩
  rw [hpstate]
  exact ⟨EL.toBits_ofBits _, rfl, h4, rfl, rfl, rfl, rfl, rfl, rfl, rfl, rfl, rfl, rfl, rfl, rfl, rfl, rfl, rfl, rfl, rfl,
    rfl, and_eq_self_or_false _ _, fun hfeat => restoreAArch64_ppend_of_sebep hfeat ▸ and_eq_self_or_false _ _,
    fun hfeat => restoreAArch64_ppend_of_not_sebep hfeat, rfl, hspsr, hpcHolds, hpstate ▸ hframe⟩

/-- Settles O31: the restored PSTATE is R233's, field by field, with E by the level returned to. -/
theorem returnToAArch32Restores : Obligations.ReturnToAArch32Restores := by
  intro s hat h4 hlegal
  obtain ⟨s', hnext, hpstate, hspsr, hpc, hframe⟩ := exceptionReturn_of_legal hat hlegal
  rw [restoredPState_of_aarch32 h4] at hpstate
  rw [returnPc_of_aarch32 h4] at hpc
  obtain ⟨hE0, hE1, hE⟩ := restoredE_cases s.cfg (spsrTargetEL s.spsrEL3) (bit s.spsrEL3 9)
  refine ⟨s', hnext, ?_⟩
  rw [hpstate]
  exact ⟨h4, rfl, rfl, rfl, rfl, rfl, rfl, rfl, rfl, rfl, rfl, rfl, rfl, rfl, and_eq_self_or_false _ _, rfl, rfl, rfl,
    spsrTargetEL_of_aarch32 h4, hspsr, hpc, hE0, hE1, hE, hpstate ▸ hframe⟩

/-- Settles O32: in each layout the causes are those of `illegalReturn`. -/
theorem illegalReturnIsAFault : Obligations.IllegalReturnIsAFault := by
  rintro s hat (⟨h4, hcause⟩ | ⟨h4, hcause⟩)
  · exact exceptionReturn_of_illegal hat ((illegalReturn_iff_of_aarch64 h4).mpr hcause)
  · exact exceptionReturn_of_illegal hat ((illegalReturn_iff_of_aarch32 h4).mpr hcause)

/-- R140, R236: what an implemented level in AArch64 state saves is a legal value of M[3:0]. -/
theorem savedMode_legal (el : EL) (sp : Bool) (h : el = .el0 → sp = false) :
    el.toBits ++ 0#1 ++ BitVec.ofBool sp ∈ legalM64 := by
  revert h
  cases el <;> cases sp <;> decide

/-- R230, R232: a field saved where it is live and restored where it is live is the field saved, if it was so already where
it is not. -/
theorem restored_saved_of_live {α : Type} (live : Bool) (field other zero : α) :
    (if live = true then (if live = true then field else zero) else if live = true then other else field) = field := by
  cases live <;> rfl

/-- A bit saved where it is live, as a choice. -/
theorem saved_eq_ite (live field : Bool) : (live && field) = if live = true then field else false := by
  cases live <;> rfl

/-- Settles O33: the saved value is in the AArch64 layout and legal, and each field restored is the bit or field it was
saved in. -/
theorem returnUndoesEntryAArch64 : Obligations.ReturnUndoesEntryAArch64 := by
  intro c p q hn hsp hlevel
  obtain ⟨hexlock, hppend, hpm, hN, hZ, hC, hV, htco, hdit, huao, hpan, hss, hil, hallint, hssbs, hbtype, hd, ha, hi, hf,
    h4, hel, -, h0, -⟩ := entryFromAArch64SavesPState c p hn
  constructor
  · have hmode : slice (savedPState c p) 0 4 ∈ legalM64 := by
      rw [savedPState_of_aarch64 c hn, slice_spsrOfAArch64_mode]
      exact savedMode_legal p.el p.sp hsp
    rw [← Bool.not_eq_true, illegalReturn_iff_of_aarch64 h4, hel, EL.ofBits_toBits, hlevel]
    simp [hmode]
  · rw [← tcoLive] at htco
    rw [saved_eq_ite] at hexlock hppend hpm htco hdit huao hpan hallint hssbs
    simp only [restoredPState_of_aarch64 h4, restoreAArch64, hexlock, hppend, hpm, hN, hZ, hC, hV, htco, hdit, huao, hpan,
      hss, hil, hallint, hssbs, hbtype, hd, ha, hi, hf, h4, hel, h0, hn, EL.ofBits_toBits, Bool.and_true,
      restored_saved_of_live]

/-! ## The steps of the event list (R223, R232, log 13) -/

/-- Settles O29: a return is refused or made as it is outside a step, and an access passes on what the access of the EL3
regime answers. -/
theorem eventStepsConsumeTheEvent : Obligations.EventStepsConsumeTheEvent := by
  intro s rest
  refine ⟨step_of_event, fun hev hnot => ?_, fun va acc hev hat => ?_, fun va acc hev hnot => ?_⟩
  · exact (step_of_event hev).trans (exceptionReturn_of_not_atEL3 (s := { s with events := rest }) hnot)
  · have hcan : State.canReturnFromEL3 { s with events := rest } = true := canReturnFromEL3_iff.mpr hat
    rw [step_of_event hev]
    rcases hanswer : State.accessEL3 { s with events := rest } s.draws va acc with ⟨pa, s₁⟩ | f | r <;>
      simp [State.handleEvent, State.environmentAccess, hcan, hanswer]
  · have hcan : State.canReturnFromEL3 { s with events := rest } = false := by
      rw [← Bool.not_eq_true, canReturnFromEL3_iff]
      exact hnot
    rw [step_of_event hev, State.handleEvent, State.environmentAccess, hcan, Bool.not_false, if_pos rfl]

/-! ## T0SZ below its minimum (R44, R152, R223) -/

/-- R170: with one value in `History` a translation sees that value, TCR_EL3. -/
theorem seenEffective_of_oneTcrValue {s : State} (h : OneTcrValue s) (n : Nat) :
    s.seenEffective n = effective s.cfg s.tcrEL3 := by
  simp only [State.seenEffective, h, pickField_singleton, effective]

section
variable {s : State}

/-- R223: the fault comes before every other check of a translation, and so before those of the access. -/
theorem accessEL3_of_small_t0sz {n : Nat} (hr : s.regimeEnabled = true)
    (hsmall : (s.seenEffective n).t0sz.toNat < t0szMin (s.seenEffective n)) (va : Word) (acc : Access) :
    s.accessEL3 n va acc = .fault (.translationFault 1 0 va acc) := by
  simp [State.accessEL3, hr, translateEL3, hsmall]

/-- R226: at EL3 the fault of a fetch's translation is that of the step. -/
theorem step_of_fetch_fault {f : Fault} (hat : AtEL3 s) (hev : NoEvent s) (ha : pcAligned s.pc = true)
    (hfault : s.accessEL3 s.draws s.pc .instruction = .fault f) : step s = .fault f := by
  obtain ⟨-, hel, hn⟩ := hat
  have hfetch : s.fetch = .fault f := by simp [State.fetch, State.fetchAccess, hn, ha, hel, hfault]
  rw [step_of_noEvent hev, stepInstr, hfetch]

end

/-- Settles O39: any access faults, and the next fetch is an access that sees TCR_EL3 itself. -/
theorem smallT0szFaultsEveryAccess : Obligations.SmallT0szFaultsEveryAccess := by
  refine ⟨fun s n va acc hr hsmall => accessEL3_of_small_t0sz hr hsmall va acc, fun s hone hat hev ha hr hsmall => ?_⟩
  refine step_of_fetch_fault hat hev ha (accessEL3_of_small_t0sz hr ?_ s.pc .instruction)
  rw [seenEffective_of_oneTcrValue hone]
  exact hsmall

/-! ## Where the Exception level changes (R240) -/

/-- R205, R240: no instruction changes the Exception level: the trap is taken at EL3, where it goes. -/
theorem exec_el {i : Instr} {s s' : State} (h : exec i s = .next s') : s'.pstate.el = s.pstate.el := by
  obtain ⟨⟨-, hel, -⟩, hcase⟩ := exec_next h
  rcases hcase with ⟨t, -, rfl⟩ | ⟨t, -, -, rfl⟩ | ⟨t, -, -, -, rfl⟩ | ⟨t, -, rfl⟩ | ⟨t, -, rfl⟩
  · rfl
  · rfl
  · exact hel.symm
  · rfl
  · rfl

/-- R240 for the events of the environment. -/
theorem handleEvent_el {e : Event} {s s' : State} (h : s.handleEvent e = .next s') :
    e = .warmReset ∨ ((∃ k y, e = .exceptionToEL3 k y) ∧ s'.pstate.el = .el3) ∨
    (e = .exceptionReturn ∧ s.pstate.el = .el3) ∨ s'.pstate.el = s.pstate.el := by
  rcases handleEvent_next h with ⟨he, -⟩ | ⟨he, ⟨-, hel, -⟩, -, -⟩ | ⟨k, y, he, -, -, rfl⟩ | ⟨va, acc, pa, s₁, -, -, ha, rfl⟩
  · exact .inl he
  · exact .inr (.inr (.inl ⟨he, hel⟩))
  · exact .inr (.inl ⟨⟨k, y, he⟩, rfl⟩)
  · obtain ⟨u, rfl⟩ := accessEL3_updates ha
    exact .inr (.inr (.inr rfl))

/-- Settles O57: a step is an event, of which three change the level, or a fetch and an instruction, which do not. -/
theorem levelChangesOnlyByEntryReturnOrReset : Obligations.LevelChangesOnlyByEntryReturnOrReset := by
  intro s s' h hne
  rcases step_next h with ⟨e, rest, hev, he⟩ | ⟨-, bs, s₁, i, rest, hf, -, hx⟩
  · rcases handleEvent_el he with rfl | ⟨⟨k, y, rfl⟩, hel⟩ | ⟨rfl, hel⟩ | hsame
    · exact .inl ⟨rest, hev⟩
    · exact .inr (.inl ⟨⟨k, y, rest, hev⟩, hel⟩)
    · exact .inr (.inr ⟨⟨rest, hev⟩, hel⟩)
    · exact absurd hsame hne
  · obtain ⟨u, rfl⟩ := fetch_updates hf
    exact absurd (exec_el hx) hne

end Sys2Proof.Machine

/-! PROOFS of the statements on the reset state and the Warm reset (R260 to R263), and on an access under a well
programmed TCR_EL3 (R154, R157 to R159, R163, R265). -/

namespace Sys2Proof.Machine

/-! ## The reset state and the Warm reset (R260 to R263, log 1, 2, 4, 33) -/

/-- Settles O52: memory is empty, `History` holds TCR_EL3 alone, and the configuration of reset launches at EL3. -/
theorem resetMeetsInvariant : Obligations.ResetMeetsInvariant := by
  have hAArch64 : State.reset.pstate.nRW = false := rfl
  have hinv : State.reset.Inv :=
    { memory := rfl, history := rfl, level := by decide, config := by decide,
      aarch32 := fun hn => absurd (hAArch64.symm.trans hn) Bool.false_ne_true }
  exact ⟨hinv, by decide, rfl, rfl⟩

/-- R260: a step whose next event is a Warm reset resets the state that no longer has that event to come. -/
theorem step_of_warmReset {s : State} {rest : List Event} (h : s.events = .warmReset :: rest) :
    step s = .next (State.warmReset { s with events := rest }) :=
  step_of_event h

/-- Settles O60: what the Warm reset leaves, field by field. -/
theorem warmResetRestartsTheMachine : Obligations.WarmResetRestartsTheMachine := by
  intro s rest hev
  refine ⟨_, step_of_warmReset hev, ?_⟩
  simp only [State.warmReset_tcrEL3, State.warmReset_spsrEL3, State.warmReset_history, State.warmReset_pstate,
    State.warmReset_pc, State.warmReset_fgwte3Tcr, State.warmReset_ttbr0EL3, State.warmReset_x,
    State.warmReset_regimeEnabled, State.warmReset_vbarEL3, State.warmReset_elrEL3, State.warmReset_esrEL3,
    State.warmReset_cfg, State.warmReset_events, State.warmReset_mem, implies_true, and_self]

/-! ## What the model adds to a walk's answer (R154, R159) -/

/-- R154: with DS = 1 the output address is the walk's. -/
theorem constrainOutput_of_ds {e : Effective} (h : e.ds = true) (pa : Word) : constrainOutput e pa = pa := if_pos h

/-- R154, one bit: with DS = 0 the output address is the walk's but for bits [51:48], which are zero. -/
theorem bit_constrainOutput_of_not_ds {e : Effective} (h : e.ds = false) (pa : Word) {n : Nat} (hn : n < 64) :
    bit (constrainOutput e pa) n = (bit pa n && !(decide (48 ≤ n) && decide (n ≤ 51))) := by
  rw [constrainOutput, h, if_neg Bool.false_ne_true, bit_and, bit_not, bit_fieldMask_of_le hn (by decide),
    decide_eq_true hn, Bool.true_and]

/-- R154: with DS = 0, bits [51:48] of the output address are zero and the bits on both sides are the walk's. -/
theorem constrainOutput_of_not_ds {e : Effective} (h : e.ds = false) (pa : Word) :
    slice (constrainOutput e pa) 48 4 = 0 ∧ slice (constrainOutput e pa) 0 48 = slice pa 0 48 ∧
      slice (constrainOutput e pa) 52 12 = slice pa 52 12 := by
  refine ⟨slice_eq_of_bits fun k hk => ?inside, slice_congr fun k hk => ?below, slice_congr fun k hk => ?above⟩
  case inside =>
    rw [bit_constrainOutput_of_not_ds h pa (by omega)]
    simp [show 48 + k ≤ 51 by omega]
  case below =>
    rw [bit_constrainOutput_of_not_ds h pa (by omega)]
    simp [show ¬ 48 ≤ k by omega]
  case above =>
    rw [bit_constrainOutput_of_not_ds h pa (by omega)]
    simp [show ¬ 52 + k ≤ 51 by omega]

/-- R159: memory has the walker's writes where HA or HAFT is 1; dirty state management asks for HA and adds nothing. -/
theorem writeAll_allowedUpdates (e : Effective) (m : Memory) (u : List (Word × Byte)) :
    Memory.writeAll m (allowedUpdates e u) =
      if e.ha = true ∨ e.haft = true then Memory.writeAll m u else m := by
  by_cases h : e.ha = true ∨ e.haft = true
  · have hallowed : allowedUpdates e u = u := by rcases h with h | h <;> simp [allowedUpdates, h]
    rw [hallowed, if_pos h]
  · obtain ⟨hha, hhaft⟩ := not_or.mp h
    rw [allowedUpdates_of_not_ha_haft (Bool.eq_false_iff.mpr hha) (Bool.eq_false_iff.mpr hhaft), if_neg h]
    rfl

/-! ## An access under a well programmed TCR_EL3 (R163, R265) -/

/-- R163: past every check, a walk that ends in what no source describes refuses the translation by that name. -/
theorem translateEL3_of_walk_notInSource {c : Cfg} {e : Effective} {ttbr0 va : Word} {mem : List Host.Cell}
    {acc : Access} {n : Nat}
    (hchecks : t0szMin e ≤ e.t0sz.toNat ∧ e.sh0 ≠ 0b01 ∧ psHasMeaning c e.ps = true ∧ e.t0sz.toNat ≤ c.t0szMax)
    (hwalk : Config.translateS1EL3 (walkRequest c e ttbr0 mem va acc) n = .notInSource) :
    translateEL3 c e ttbr0 mem va acc n = .refused (.walkNotInSource va) := by
  obtain ⟨hmin, hsh0, hps, hmax⟩ := hchecks
  rw [translateEL3, if_neg (Nat.not_lt.mpr hmin), if_neg hsh0, hps, if_neg (by decide), if_neg (Nat.not_lt.mpr hmax),
    hwalk]

/-- R265: a well programmed value passes every check of a translation that sees it. -/
theorem translationChecks_of_tcrWellProgrammed {c : Cfg} {v : Word} (h : tcrWellProgrammed c v) :
    t0szMin (effective c v) ≤ (effective c v).t0sz.toNat ∧ (effective c v).sh0 ≠ 0b01 ∧
      psHasMeaning c (effective c v).ps = true ∧ (effective c v).t0sz.toNat ≤ c.t0szMax := by
  obtain ⟨-, -, -, hsh0, hps, hmin, hmax⟩ := h
  exact ⟨hmin, hsh0, hps, hmax⟩

section
variable {s : State} {n : Nat} {va : Word} {acc : Access}

/-- R163: with the regime enabled and the address mapped, what is left of an access is its tag check. -/
theorem accessEL3_of_mapped {pa : Word} {u : List (Word × Byte)} (hr : s.regimeEnabled = true)
    (h : translateEL3 s.cfg (s.seenEffective n) s.ttbr0EL3 s.mem va acc n = .mapped pa u) :
    s.accessEL3 n va acc =
      (s.withUpdates u).checkTags (tagControls s.cfg (s.seenEffective n) acc va) n va pa := by
  simp only [State.accessEL3, hr, Bool.not_true, Bool.false_eq_true, if_false, h]

/-- R163: with the regime enabled a refusal of the translation is that of the access. -/
theorem accessEL3_of_refused {r : Refusal} (hr : s.regimeEnabled = true)
    (h : translateEL3 s.cfg (s.seenEffective n) s.ttbr0EL3 s.mem va acc n = .refused r) :
    s.accessEL3 n va acc = .refused r := by
  simp only [State.accessEL3, hr, Bool.not_true, Bool.false_eq_true, if_false, h]

end

/-- Settles O41: the access sees TCR_EL3 itself, which passes every check, so it ends as the walk does; a mapped address
is left as R154 and R159 say and goes to the tag check. -/
theorem wellProgrammedTcrTranslates : Obligations.WellProgrammedTcrTranslates := by
  intro s n va acc hr hone hwell
  have hchecks := translationChecks_of_tcrWellProgrammed hwell
  have hseen := seenEffective_of_oneTcrValue hone n
  split
  next pa u hwalk =>
    have htranslate := translateEL3_eq_mapped_iff.mpr ⟨hchecks, pa, u, hwalk, rfl, rfl⟩
    rw [← hseen] at htranslate
    refine ⟨constrainOutput (effective s.cfg s.tcrEL3) pa,
      Memory.writeAll s.mem (allowedUpdates (effective s.cfg s.tcrEL3) u),
      fun hds => constrainOutput_of_ds hds pa, fun hds => constrainOutput_of_not_ds hds pa,
      writeAll_allowedUpdates _ s.mem u, ?_⟩
    rw [accessEL3_of_mapped hr htranslate, hseen]
    rfl
  next hwalk =>
    have htranslate := translateEL3_of_walk_notInSource hchecks hwalk
    rw [← hseen] at htranslate
    exact accessEL3_of_refused hr htranslate

end Sys2Proof.Machine
